-- ==== Sys2Proof/Word.lean ====
section
/-! DEFINITION. The two bit-vector types of the block: the 32-bit register word (R9, R52) and the packet byte (R78). -/

namespace Sys2Proof

/-- A register word: every register of the block is exactly one 32-bit word (R52). -/
abbrev Word := BitVec 32

/-- One of the four unsigned 8-bit bytes of a packet (R78), and one byte lane of the bus (R54). -/
abbrev Byte := BitVec 8

end Sys2Proof
end

