-- ==== Sys2Proof/Syntax.lean ====
section
/-! DEFINITION. The instructions of the block: one constructor per row of spec/opcode_table.json. -/

namespace Sys2Proof

/-- A command of the block (R71). The whole 32-bit word is the opcode, and every command takes its operands from
fixed registers (R70), so no constructor carries an operand. A word that is none of the three is no instruction of
the table: writing it to CMD has the effect R72 gives it (`Machine.illegalCommand`). -/
inductive Instr where
  /-- COMPILE, word 0x00000001: `PACKET <- compile(SETTINGS, TEMP_C)` (R110). -/
  | compile
  /-- ENCODE, word 0x00000002: `PULSE <- encode(PACKET)`, and one transmit event (R135). -/
  | encode
  /-- DECODE, word 0x00000003: `PACKET <- decode(PULSE, PULSE_LEN)` (R159). -/
  | decode
  deriving DecidableEq, Repr

end Sys2Proof
end

