-- ==== Sys2Proof/Decode.lean ====
section
/-! DEFINITION. The command word: its byte order on the bus (R54), its decoder (R70 to R72), and the encoder. -/

namespace Sys2Proof

/-- Byte lane `k` of a register word: bits [8k+7:8k] (R54). -/
def lane (w : Word) (k : Nat) : Byte := w.extractLsb' (8 * k) 8

/-- A register word as its four bytes at rising bus addresses: little-endian, lane 0 first (R54). -/
def bytesOfWord (w : Word) : List Byte := [lane w 0, lane w 1, lane w 2, lane w 3]

/-- The word of byte lanes given lane 0 first: lane `k` in bits [8k+7:8k] (R54). -/
def wordOfBytes : List Byte → Word
  | [] => 0#32
  | b :: bs => (wordOfBytes bs <<< 8) ||| b.setWidth 32

/-- Why a command is no instruction. -/
inductive CommandReject where
  /-- The word is not 1, 2 or 3 (R72): writing it to CMD reports ILLEGAL_COMMAND. -/
  | illegalWord (w : Word)
  /-- Fewer than the four bytes of a command word (R70: every command has the same length, one word). -/
  | tooShort
  deriving DecidableEq, Repr

/-- The command a word selects. All 32 bits are compared (R70), and every other word is illegal (R72). -/
def decodeWord (w : Word) : Except CommandReject Instr :=
  if w = 0x00000001#32 then .ok .compile
  else if w = 0x00000002#32 then .ok .encode
  else if w = 0x00000003#32 then .ok .decode
  else .error (.illegalWord w)

/-- The decoder on bytes in bus order: one command word and the bytes after it. -/
def decodeBytes : List Byte → Except CommandReject (Instr × List Byte)
  | l0 :: l1 :: l2 :: l3 :: rest =>
    match decodeWord (wordOfBytes [l0, l1, l2, l3]) with
    | .ok i => .ok (i, rest)
    | .error r => .error r
  | _ => .error .tooShort

/-- The command word of an instruction (R71). -/
def encode : Instr → Word
  | .compile => 0x00000001#32
  | .encode => 0x00000002#32
  | .decode => 0x00000003#32

/-- The bytes of an instruction's command word, as the bus carries them. -/
def encodeBytes (i : Instr) : List Byte := bytesOfWord (encode i)

/-- The command word whose bits are `w`, of which the opcode table gives the low `nbits`; the bits above are zero. -/
def tableWord (nbits w : Nat) : Word := BitVec.ofNat 32 (w % 2 ^ nbits)

/-- The instruction the decoder reads from the table's word. -/
def decodeTableWord (nbits w : Nat) : Option Instr :=
  match decodeBytes (bytesOfWord (tableWord nbits w)) with
  | .ok (i, _) => some i
  | .error _ => none

end Sys2Proof
end

