-- ==== Sys2Proof/Machine/Constants.lean ====
section
/-! DEFINITION. The protocol constants of R8 in one table (93_implementation_defined.md I1: a correction touches one
place), and the ten constant registers that show them to the host (R29). -/

namespace Sys2Proof.Machine

/-- `CARRIER_HZ`, the carrier frequency in Hz (R8). -/
def carrierHz : Nat := 38000
/-- `LEAD_MARK_US`, the lead-in mark (R8). -/
def leadMarkUs : Nat := 8500
/-- `LEAD_SPACE_US`, the lead-in space (R8). -/
def leadSpaceUs : Nat := 4400
/-- `BIT_MARK_US`, the mark of every bit cell and the trailing mark (R8). -/
def bitMarkUs : Nat := 550
/-- `LONG_SPACE_US`, the space of a 0 bit (R8, R83, 90_conflicts.md C1). -/
def longSpaceUs : Nat := 1550
/-- `SHORT_SPACE_US`, the space of a 1 bit (R8, R83, 90_conflicts.md C1). -/
def shortSpaceUs : Nat := 550
/-- `STOP_SPACE_US`, the space that ends the train (R8). -/
def stopSpaceUs : Nat := 4400
/-- `HEADER`, byte 0 of every compiled packet (R8). -/
def headerByte : Byte := 0x48#8
/-- `POWER_ON` (R8). -/
def powerOnByte : Byte := 0xA8#8
/-- `POWER_OFF` (R8). -/
def powerOffByte : Byte := 0x32#8
/-- `MODE_COOL` (R8). -/
def modeCool : Byte := 0x10#8
/-- `MODE_DRY` (R8). -/
def modeDry : Byte := 0x40#8
/-- `MODE_FAN` (R8). -/
def modeFanOnly : Byte := 0x80#8
/-- `FAN_LOW` (R8). -/
def fanLow : Byte := 0x02#8
/-- `FAN_MED` (R8). -/
def fanMedium : Byte := 0x04#8
/-- `FAN_HIGH` (R8). -/
def fanHigh : Byte := 0x08#8
/-- `PKT_LEN`, the bytes of a packet (R8, R78). -/
def pktLen : Nat := 4
/-- `TRAIN_LEN`, the entries of a pulse train and of the buffer (R8, R28). -/
def trainLen : Nat := 68
/-- Numerator and denominator of `T_MIN_C` = 16.67, the exact decimal 1667/100 (R8, R105). -/
def tMin : Int × Nat := (1667, 100)
/-- Numerator and denominator of `T_MAX_C` = 30 (R8, R105). -/
def tMax : Int × Nat := (30, 1)
/-- Numerator and denominator of the factor of the Fahrenheit conversion, the source's 1.8 (R106, I1). -/
def fahrenheitScale : Int × Nat := (9, 5)
/-- Numerator and denominator of the offset of the Fahrenheit conversion, the source's 32.0 (R106, I1). -/
def fahrenheitOffset : Int × Nat := (32, 1)

/-- The ten read-only constant registers, in the order of their offsets (R29). -/
inductive ConstReg where
  | carrierHz | leadMarkUs | leadSpaceUs | bitMarkUs | longSpaceUs | shortSpaceUs | stopSpaceUs
  | pktConst | modeBits | fanBits
  deriving DecidableEq, Repr

/-- Three bytes in lanes 0, 1 and 2 of a word whose lane 3 is 0: the fields of PKT_CONST, MODE_BITS, FAN_BITS (R29). -/
def threeLanes (a b c : Byte) : Word := 0#8 ++ c ++ b ++ a

/-- What a constant register holds "at reset and at every later time" (R29). -/
def ConstReg.value : ConstReg → Word
  | .carrierHz => BitVec.ofNat 32 Machine.carrierHz
  | .leadMarkUs => BitVec.ofNat 32 Machine.leadMarkUs
  | .leadSpaceUs => BitVec.ofNat 32 Machine.leadSpaceUs
  | .bitMarkUs => BitVec.ofNat 32 Machine.bitMarkUs
  | .longSpaceUs => BitVec.ofNat 32 Machine.longSpaceUs
  | .shortSpaceUs => BitVec.ofNat 32 Machine.shortSpaceUs
  | .stopSpaceUs => BitVec.ofNat 32 Machine.stopSpaceUs
  | .pktConst => threeLanes headerByte powerOnByte powerOffByte
  | .modeBits => threeLanes modeCool modeDry modeFanOnly
  | .fanBits => threeLanes fanLow fanMedium fanHigh

end Sys2Proof.Machine
end

