-- ==== Sys2Proof/Machine/Frac.lean ====
section
/-! DEFINITION. Exact rational arithmetic (R11) on a numerator and a positive denominator, so that it evaluates, and
the rounding of R13. Laws/Frac.lean proves comparison, product and sum equal to those on ℚ; that the rounding is the
one of R13 is the obligation RoundingIsHalfAwayFromZero. -/

namespace Sys2Proof.Machine

/-- The rational `num / den`; every value the machine makes has `den` positive. -/
structure Frac where
  num : Int
  den : Nat
  deriving DecidableEq, Repr

/-- The rational a fraction stands for. -/
def Frac.toRat (a : Frac) : ℚ := (a.num : ℚ) / (a.den : ℚ)

/-- `a < b`. -/
def Frac.lt (a b : Frac) : Bool := decide (a.num * b.den < b.num * a.den)

/-- `a × b`. -/
def Frac.mul (a b : Frac) : Frac := { num := a.num * b.num, den := a.den * b.den }

/-- `a + b`. -/
def Frac.add (a b : Frac) : Frac := { num := a.num * b.den + b.num * a.den, den := a.den * b.den }

/-- `round_half_away` (R13): the nearest integer, a half going to the one of larger magnitude. -/
def Frac.roundHalfAway (a : Frac) : Int :=
  if 0 ≤ a.num then (2 * a.num + a.den) / (2 * a.den) else -((2 * -a.num + a.den) / (2 * a.den))

end Sys2Proof.Machine
end

