-- ==== Sys2Proof/Machine/Flags.lean ====
section
/-! DEFINITION. The block's only condition indicator: STATUS.RESULT and its codes (R23, R84). -/

namespace Sys2Proof.Machine

/-- The four error kinds of the pulse decoder (R12, R200). -/
inductive DecodeError where
  | malformedLength | invalidLeadIn | ambiguousBit | invalidTrailer
  deriving DecidableEq, Repr

/-- What a CMD write can report in STATUS.RESULT (R84, R200). -/
inductive CommandResult where
  /-- COMPILE, ENCODE and a successful DECODE. -/
  | ok
  /-- A DECODE whose checks failed. -/
  | decodeError (e : DecodeError)
  /-- A CMD word that is none of the three (R72). -/
  | illegalCommand
  deriving DecidableEq, Repr

/-- The code of a decode error (R84). -/
def DecodeError.code : DecodeError → Word
  | .malformedLength => 1#32
  | .invalidLeadIn => 2#32
  | .ambiguousBit => 3#32
  | .invalidTrailer => 4#32

/-- The word a result leaves in STATUS: its code in RESULT, the reserved bits 0 (R23, R84). 5 and 6 are no code. -/
def CommandResult.code : CommandResult → Word
  | .ok => 0#32
  | .decodeError e => e.code
  | .illegalCommand => 7#32

/-- `zext_32(RESULT)`: what a host read of STATUS returns (R23, R56). -/
def resultField (status : Word) : Word := (status.extractLsb' 0 3).setWidth 32

end Sys2Proof.Machine
end

