-- ==== Sys2Proof/Config.lean ====
section
/-! DEFINITION. What the platform fixes for the life of a model instance (R9, R10), and the one value the spec
leaves free (R107). The protocol constants of R8 stand in Machine/Constants.lean. -/

namespace Sys2Proof.Config

/-- The parameters the spec's model "takes as an argument": no register holds or changes them (R9, R10).
They stand in State so that the one step function takes them with it (notes/assumptions/5.md). -/
structure Params where
  /-- `TOL`, the decoder's relative tolerance, a rational with `0 <= TOL < 1` (R10). -/
  tol : ℚ
  /-- `CODEC_BASE`, the bus address of the window, 1024-byte aligned (R9, R50). -/
  base : Nat
  deriving DecidableEq, Repr

/-- The default of R10, `TOL` = 1/4, written with its numerator and denominator in the open so that it evaluates. -/
def defaultTol : ℚ := { num := 1, den := 4, den_nz := by decide, reduced := by decide }

/-- FREE VALUE. `draw()` of R107: the byte 3 that the n-th COMPILE of a NaN temperature produces, "any 8-bit value,
under no law". It has no body, so nothing can be proved of its values (notes/assumptions/7.md, DESIGN CHOICE, safe). -/
opaque freeByte : Nat → Byte

end Sys2Proof.Config
end

