-- ==== Sys2Proof/Machine/Access.lean ====
section
/-! DEFINITION. What the host puts on the bus: one register access (R50, R85). -/

namespace Sys2Proof.Machine

/-- One access of the host, with its bus address and its bytes in rising address order (R54). The spec's accesses
are `MemRead(CODEC_BASE + off, 4)` and `MemWrite(CODEC_BASE + off, 4, v)` (R50); the other sizes and addresses are
here because R55 says what becomes of them. -/
inductive HostAccess where
  /-- Read `size` bytes at bus address `addr`. -/
  | read (addr size : Nat)
  /-- Write `bytes`, the first at bus address `addr`; the access's size is their number. -/
  | write (addr : Nat) (bytes : List Byte)
  deriving DecidableEq, Repr

/-- The bus address of an access. -/
def HostAccess.addr : HostAccess → Nat
  | .read a _ => a
  | .write a _ => a

/-- The size of an access in bytes. -/
def HostAccess.size : HostAccess → Nat
  | .read _ n => n
  | .write _ bs => bs.length

end Sys2Proof.Machine
end

