-- ==== Sys2Proof/Machine/State.lean ====
section
/-! DEFINITION. The state of the block (R20), as plain data, and the state after reset (R230). -/

namespace Sys2Proof.Machine

/-- The kind of a pulse: carrier on, or carrier off (R12, the Glossary of 00_scope.md). -/
inductive PulseKind where
  /-- An IR carrier-on pulse. -/
  | mark
  /-- An IR carrier-off pulse. -/
  | space
  deriving DecidableEq, Repr

/-- One entry `(kind, dur)` of a pulse train, `dur` a natural number of microseconds (R12). -/
structure PulseEntry where
  kind : PulseKind
  dur : Nat
  deriving DecidableEq, Repr

/-- A pulse train: a finite sequence of entries (R12). -/
abbrev PulseTrain := List PulseEntry

/-- One event handed to the transmit sink, `TX(carrier_hz, train)` (R30). -/
structure TxEvent where
  carrierHz : Nat
  train : PulseTrain
  deriving DecidableEq, Repr

/-- A register that may be unwritten: 32 bits and a written flag (R20, R40). While the flag is false no rule gives
the word a meaning, and reading it is `fault(UninitRead)` (R41). -/
structure Cell where
  word : Word
  written : Bool
  deriving DecidableEq, Repr

/-- The reasons of the FAULT mark, a closed set (R42). They stop the machine: a step from a state whose FAULT is set
answers this reason. Both are SAFE: the spec gives the use no meaning and errs toward unprovable (R206). -/
inductive Fault where
  /-- Raised by a host read of an unwritten cell (R56), and by a command that consumes one (R41, R110, R135, R159; D24
  of 92_eei_decisions.md and I9 of 93_implementation_defined.md say the same). Safe. -/
  | uninitRead
  /-- Raised by a host access of a size other than 4, misaligned, or to an unmapped offset (R55). Safe. -/
  | badAccess
  deriving DecidableEq, Repr

/-- Why a step could have no meaning. -/
inductive Refusal where
  /-- Raised by an arm of `exec` whose instruction has no meaning yet, named as the opcode table names it. Safe.
  No arm raises it: every row of the table has its meaning. -/
  | notModelled (mnemonic : String)
  deriving DecidableEq, Repr

/-- The architectural state of R20 (`status` to `fault`), the parameters (R9, R10), and three fields of the model's
own (`draws`, `pending`, `replies`: notes/assumptions/1.md and 7.md). -/
structure State where
  /-- STATUS (R23). -/
  status : Word
  /-- SETTINGS (R24). -/
  settings : Word
  /-- TEMP_C and its written flag (R25, R40). -/
  tempC : Cell
  /-- PACKET and its written flag (R26, R40). -/
  packet : Cell
  /-- PULSE_LEN (R27). -/
  pulseLen : Word
  /-- PULSE[0..67] and their written flags (R28, R40). -/
  pulse : Vector Cell 68
  /-- TXLOG, oldest event first (R30). -/
  txLog : List TxEvent
  /-- FAULT: none, or the reason of the fault the run met (R41, R42). -/
  fault : Option Fault
  /-- TOL and CODEC_BASE, fixed for the life of the instance (R9, R10). -/
  params : Config.Params
  /-- The model's own: how many free values `draw()` (R11, R107) has given. -/
  draws : Nat
  /-- The model's own: the host's accesses not yet performed, in program order (R21, R59, R85). -/
  pending : List HostAccess
  /-- The model's own: what the host's reads returned, oldest first, each as its byte lanes 0 to 3 (R54, R85). -/
  replies : List (List Byte)
  deriving DecidableEq, Repr

/-- An unwritten cell. The spec gives its word no value at reset; the model holds 0 (DESIGN CHOICE, unsafe:
notes/assumptions/4.md). -/
def Cell.unwritten : Cell := { word := 0#32, written := false }

/-- The block right after reset (R34, R230), with the default `TOL` of R10, the window at bus address 0
(DESIGN CHOICE, notes/assumptions/5.md) and a host that has no access to perform. -/
def State.reset : State where
  status := 0#32
  settings := 0#32
  tempC := Cell.unwritten
  packet := Cell.unwritten
  pulseLen := 0#32
  pulse := Vector.replicate 68 Cell.unwritten
  txLog := []
  fault := none
  params := { tol := Config.defaultTol, base := 0 }
  draws := 0
  pending := []
  replies := []

end Sys2Proof.Machine
end

