-- ==== Sys2Proof/Machine/Ops.lean ====
section
/-! DEFINITION. The named operations over the registers: every read of a cell and every write of the state. -/

namespace Sys2Proof.Machine

/-- Reading a cell: its word if it was written, nothing otherwise (R41). -/
def Cell.read (c : Cell) : Option Word := if c.written then some c.word else none

/-- A cell that has just been written: the word, and the flag set (R40, R57). -/
def Cell.holding (w : Word) : Cell := { word := w, written := true }

/-- `fault(reason)`: FAULT is set and nothing else changes (R11, R41, R55). The one place where a fault is entered;
nothing clears it. -/
def State.raise (s : State) (r : Fault) : State := { s with fault := some r }

/-- `R(STATUS) <- code` (R23, R84). -/
def State.setResult (s : State) (r : CommandResult) : State := { s with status := r.code }

/-- A host write of SETTINGS: bits [31:5] ignored, so they read 0 (R24, R57). -/
def State.writeSettings (s : State) (w : Word) : State :=
  { s with settings := (w.extractLsb' 0 5).setWidth 32 }

/-- `R(TEMP_C) <- w`, and its written flag set (R40, R57). -/
def State.writeTempC (s : State) (w : Word) : State := { s with tempC := Cell.holding w }

/-- `R(PACKET) <- w`, and its written flag set (R40, R57). -/
def State.writePacket (s : State) (w : Word) : State := { s with packet := Cell.holding w }

/-- `R(PULSE_LEN) <- w` (R27, R57). -/
def State.writePulseLen (s : State) (w : Word) : State := { s with pulseLen := w }

/-- `PULSE[i] <- w`, and its written flag set (R40, R57). -/
def State.writePulse (s : State) (i : Fin 68) (w : Word) : State :=
  { s with pulse := s.pulse.set i (Cell.holding w) }

/-- All of PULSE[0..67] overwritten, and every written flag set (R40, R135). -/
def State.writeTrain (s : State) (t : Fin 68 → Word) : State :=
  { s with pulse := s.pulse.mapFinIdx fun i _ h => Cell.holding (t ⟨i, h⟩) }

/-- `emit TX(carrier, train)`: one event appended to TXLOG (R30, R136). -/
def State.emitTx (s : State) (e : TxEvent) : State := { s with txLog := s.txLog ++ [e] }

/-- The step has used `n` free values of `draw()` (R107). -/
def State.useDraws (s : State) (n : Nat) : State := { s with draws := s.draws + n }

/-- A read returned this word to the host, lane 0 first (R54, R56). -/
def State.reply (s : State) (bytes : List Byte) : State := { s with replies := s.replies ++ [bytes] }

/-- The host's accesses still to be performed. -/
def State.setPending (s : State) (l : List HostAccess) : State := { s with pending := l }

/-- An illegal command word: STATUS = ILLEGAL_COMMAND "and has no other effect" (R72). -/
def illegalCommand (s : State) : State := s.setResult .illegalCommand

end Sys2Proof.Machine
end

