-- ==== Sys2Proof/Machine/Operands.lean ====
section
/-! DEFINITION. What the commands read from their registers: the fields of SETTINGS (R74), the temperature (R77),
the packet (R78, R79) and the pulse entry (R80). -/

namespace Sys2Proof.Machine

/-- POWER, bit 0 of SETTINGS (R24, R74). -/
def powerField (settings : Word) : Bool := settings.getLsbD 0

/-- MODE, bits [2:1] of SETTINGS (R24, R74). -/
def modeField (settings : Word) : BitVec 2 := settings.extractLsb' 1 2

/-- FAN, bits [4:3] of SETTINGS (R24, R74). -/
def fanField (settings : Word) : BitVec 2 := settings.extractLsb' 3 2

/-- The value of a binary32 pattern (R77). -/
inductive Temp where
  /-- A finite value, exactly; +0 and -0 are both 0. -/
  | finite (q : Frac)
  /-- An infinity; `neg` is its sign. -/
  | inf (neg : Bool)
  | nan
  deriving DecidableEq, Repr

/-- `(-1)^s × m` (R77). -/
def signed (neg : Bool) (m : Nat) : Int := if neg then -(m : Int) else (m : Int)

/-- `temp(w)` (R77). For `1 <= e <= 254` the value is `(2^23 + f) × 2^(e - 150)`, one of the two powers being 1. -/
def Temp.ofWord (w : Word) : Temp :=
  let s := w.getLsbD 31
  let e := (w.extractLsb' 23 8).toNat
  let f := (w.extractLsb' 0 23).toNat
  if e = 0 then .finite { num := signed s f, den := 2 ^ 149 }
  else if e = 255 then (if f = 0 then .inf s else .nan)
  else .finite { num := signed s ((2 ^ 23 + f) * 2 ^ (e - 150)), den := 2 ^ (150 - e) }

/-- A packet: exactly four bytes, index 0 to 3 (R78). -/
structure Packet where
  b0 : Byte
  b1 : Byte
  b2 : Byte
  b3 : Byte
  deriving DecidableEq, Repr

/-- The bytes in packet order, index 0 to 3 (R82). -/
def Packet.bytes (p : Packet) : List Byte := [p.b0, p.b1, p.b2, p.b3]

/-- `{PKT[3], PKT[2], PKT[1], PKT[0]}`: byte i in bits [8i+7:8i] (R79). -/
def Packet.toWord (p : Packet) : Word :=
  (p.b3.setWidth 32 <<< 24) ||| (p.b2.setWidth 32 <<< 16) ||| (p.b1.setWidth 32 <<< 8) ||| p.b0.setWidth 32

/-- `PKT[i] = R(PACKET)[8i+7:8i]` (R26, R79). -/
def Packet.ofWord (w : Word) : Packet where
  b0 := w.extractLsb' 0 8
  b1 := w.extractLsb' 8 8
  b2 := w.extractLsb' 16 8
  b3 := w.extractLsb' 24 8

/-- `p[k div 8] <- p[k div 8] | (b << (k mod 8))` (R158). -/
def Packet.orBit (p : Packet) (k : Nat) (b : Bool) : Packet :=
  let m : Byte := (if b then 1#8 else 0#8) <<< (k % 8)
  match k / 8 with
  | 0 => { p with b0 := p.b0 ||| m }
  | 1 => { p with b1 := p.b1 ||| m }
  | 2 => { p with b2 := p.b2 ||| m }
  | _ => { p with b3 := p.b3 ||| m }

/-- `{KIND[31], DUR[30:0]}`, KIND 1 = Mark (R80, R135). -/
def PulseEntry.toWord (e : PulseEntry) : Word :=
  (match e.kind with
    | .mark => 0x80000000#32
    | .space => 0#32) ||| (BitVec.ofNat 31 e.dur).setWidth 32

/-- The entry a PULSE word holds (R80, R159). Every 32-bit word is a legal entry. -/
def PulseEntry.ofWord (w : Word) : PulseEntry where
  kind := if w.getLsbD 31 then .mark else .space
  dur := (w.extractLsb' 0 31).toNat

end Sys2Proof.Machine
end

