-- ==== Sys2Proof/Machine/Compile.lean ====
section
/-! DEFINITION. COMPILE, the settings bitfield packer (R100 to R110). -/

namespace Sys2Proof.Machine

/-- `mode_bit(MODE)` (R100); the last arm is value 3, "unrecognized: default arm, Cool". -/
def modeBit (m : BitVec 2) : Byte :=
  if m = 0#2 then modeCool else if m = 1#2 then modeDry else if m = 2#2 then modeFanOnly else modeCool

/-- `fan_bit(FAN)` (R101); the last arm is value 3, "unrecognized: default arm, Low". -/
def fanBit (f : BitVec 2) : Byte :=
  if f = 0#2 then fanLow else if f = 1#2 then fanMedium else if f = 2#2 then fanHigh else fanLow

/-- Byte 2, the power constant (R103). -/
def powerByte (on : Bool) : Byte := if on then powerOnByte else powerOffByte

/-- `T_MIN_C` (R105). -/
def tMinC : Frac := { num := tMin.1, den := tMin.2 }

/-- `T_MAX_C` (R105). -/
def tMaxC : Frac := { num := tMax.1, den := tMax.2 }

/-- `clamp(t)` of a finite value (R105). -/
def clampFrac (t : Frac) : Frac := if t.lt tMinC then tMinC else if tMaxC.lt t then tMaxC else t

/-- `clamp(t)` (R105); an infinity lies below or above every finite value; a NaN has none. -/
def clampTemp : Temp → Option Frac
  | .finite q => some (clampFrac q)
  | .inf true => some tMinC
  | .inf false => some tMaxC
  | .nan => none

/-- `round_half_away(c × 9/5 + 32)` (R106), the factor and the offset from the constants table. -/
def fahrenheit (c : Frac) : Int :=
  ((c.mul { num := fahrenheitScale.1, den := fahrenheitScale.2 }).add
    { num := fahrenheitOffset.1, den := fahrenheitOffset.2 }).roundHalfAway

/-- Byte 3: the Fahrenheit setpoint "taken as an unsigned 8-bit integer" (R106), or for a NaN the drawn byte (R107). -/
def setpointByte (t : Temp) (draw : Byte) : Byte :=
  match clampTemp t with
  | some c => BitVec.ofInt 8 (fahrenheit c)
  | none => draw

/-- How many draws a temperature takes: one for a NaN (R107), none otherwise. -/
def drawsOf : Temp → Nat
  | .nan => 1
  | .finite _ => 0
  | .inf _ => 0

/-- `compile(SETTINGS, TEMP_C)`, whole (R109). Byte 1 does not look at POWER (R104). -/
def compilePacket (settings temp : Word) (draw : Byte) : Packet where
  b0 := headerByte
  b1 := modeBit (modeField settings) ||| fanBit (fanField settings)
  b2 := powerByte (powerField settings)
  b3 := setpointByte (Temp.ofWord temp) draw

/-- COMPILE (R110): PACKET and STATUS = OK, or `fault(UninitRead)` when TEMP_C is unwritten. -/
def execCompile (s : State) : Host.Outcome State Fault Refusal :=
  match s.tempC.read with
  | none => .next (s.raise .uninitRead)
  | some t =>
    .next (((s.useDraws (drawsOf (Temp.ofWord t))).writePacket
      (compilePacket s.settings t (Config.freeByte s.draws)).toWord).setResult .ok)

end Sys2Proof.Machine
end

