-- ==== Sys2Proof/Machine/DecodePulse.lean ====
section
/-! DEFINITION. DECODE, the mark/space parser with tolerance validation (R150 to R162). -/

namespace Sys2Proof.Machine

/-- Why a decode ends without a packet. -/
inductive DecodeStop where
  /-- A check reached an entry nothing has written (R41, R159): no result, a model fault. -/
  | uninit
  /-- A check failed: an error result (R150). -/
  | err (e : DecodeError)
  deriving DecidableEq, Repr

/-- How the decoder gets entry `n`. Entries are read in index order and only as far as the checks go (R158). -/
abbrev PulseReader := Nat → Except DecodeStop PulseEntry

/-- `within(d, nom)`: `nom × (1 - TOL) <= d <= nom × (1 + TOL)` in exact rationals, both bounds inclusive (R14),
multiplied out by the denominator of `TOL` (that it is the test in ℚ is the obligation WindowIsTheRationalOne). -/
def within (tol : ℚ) (d nom : Nat) : Bool :=
  decide ((nom : Int) * (tol.den - tol.num) ≤ d * tol.den) &&
    decide ((d : Int) * tol.den ≤ nom * (tol.den + tol.num))

/-- `|a - b|` (R154). -/
def distance (a b : Nat) : Nat := (a - b) + (b - a)

/-- `classify(d)` (R154): by nearness; the windows only decide failure, and an equidistant duration fails. -/
def classify (tol : ℚ) (d : Nat) : Except DecodeStop Bool :=
  if !within tol d shortSpaceUs && !within tol d longSpaceUs then .error (.err .ambiguousBit)
  else if distance d shortSpaceUs < distance d longSpaceUs then .ok true
  else if distance d longSpaceUs < distance d shortSpaceUs then .ok false
  else .error (.err .ambiguousBit)

/-- The check of one position: entry `n` has this kind and lies within this nominal duration, or the check fails
with `e` (R152, R153, R156). -/
def expectEntry (tol : ℚ) (read : PulseReader) (n : Nat) (kind : PulseKind) (nom : Nat) (e : DecodeError) :
    Except DecodeStop Unit :=
  match read n with
  | .error x => .error x
  | .ok t => if t.kind = kind ∧ within tol t.dur nom = true then .ok () else .error (.err e)

/-- Bit cell `k`: its mark (R153), then its space (R154), which gives the bit. -/
def decodeCell (tol : ℚ) (read : PulseReader) (k : Nat) : Except DecodeStop Bool :=
  match expectEntry tol read (2 + 2 * k) .mark bitMarkUs .ambiguousBit with
  | .error x => .error x
  | .ok () =>
    match read (3 + 2 * k) with
    | .error x => .error x
    | .ok t => if t.kind = .space then classify tol t.dur else .error (.err .ambiguousBit)

/-- `todo` bit cells from cell `k` on, each bit put into its place of the packet (R155, R158). -/
def decodeCells (tol : ℚ) (read : PulseReader) : (todo k : Nat) → Packet → Except DecodeStop Packet
  | 0, _, p => .ok p
  | todo + 1, k, p =>
    match decodeCell tol read k with
    | .error x => .error x
    | .ok b => decodeCells tol read todo (k + 1) (p.orBit k b)

/-- The lead-in, entry 0 before entry 1 (R152). -/
def checkLeadIn (tol : ℚ) (read : PulseReader) : Except DecodeStop Unit :=
  match expectEntry tol read 0 .mark leadMarkUs .invalidLeadIn with
  | .error x => .error x
  | .ok () => expectEntry tol read 1 .space leadSpaceUs .invalidLeadIn

/-- The trailer, entry 66 before entry 67 (R156). -/
def checkTrailer (tol : ℚ) (read : PulseReader) : Except DecodeStop Unit :=
  match expectEntry tol read 66 .mark bitMarkUs .invalidTrailer with
  | .error x => .error x
  | .ok () => expectEntry tol read 67 .space stopSpaceUs .invalidTrailer

/-- The packet of four zero bytes the bits are put into (R158). -/
def Packet.zero : Packet := { b0 := 0#8, b1 := 0#8, b2 := 0#8, b3 := 0#8 }

/-- `decode(t, len)`, whole, in the check order of R150: length, lead-in, cells 0 to 31, trailer (R158). The bytes'
values are not checked (R157). -/
def decodeWith (tol : ℚ) (read : PulseReader) (len : Nat) : Except DecodeStop Packet :=
  if len ≠ trainLen then .error (.err .malformedLength)
  else
    match checkLeadIn tol read with
    | .error x => .error x
    | .ok () =>
      match decodeCells tol read (8 * pktLen) 0 Packet.zero with
      | .error x => .error x
      | .ok p =>
        match checkTrailer tol read with
        | .error x => .error x
        | .ok () => .ok p

/-- A train as a reader: past its end there is nothing to read. -/
def trainReader (t : PulseTrain) : PulseReader := fun n =>
  match t[n]? with
  | some e => .ok e
  | none => .error .uninit

/-- The pure function `decode(t, len)` of a train in hand (R12, R158). -/
def decodeTrain (tol : ℚ) (t : PulseTrain) (len : Nat) : Except DecodeStop Packet :=
  decodeWith tol (trainReader t) len

/-- The PULSE buffer as a reader: an entry never written stops the decode (R41, R159). The checks read no index
above 67. -/
def pulseReader (buf : Vector Cell 68) : PulseReader := fun n =>
  match buf[n]? with
  | none => .error .uninit
  | some c =>
    match c.read with
    | none => .error .uninit
    | some w => .ok (PulseEntry.ofWord w)

/-- DECODE (R159): PACKET and STATUS = OK on success; on an error only STATUS, "nothing is saved, no other register
changes"; `fault(UninitRead)` when the checks reach an unwritten entry. -/
def execDecode (s : State) : Host.Outcome State Fault Refusal :=
  match decodeWith s.params.tol (pulseReader s.pulse) s.pulseLen.toNat with
  | .ok p => .next ((s.writePacket p.toWord).setResult .ok)
  | .error (.err e) => .next (s.setResult (.decodeError e))
  | .error .uninit => .next (s.raise .uninitRead)

end Sys2Proof.Machine
end

