-- ==== Sys2Proof/Machine/Encode.lean ====
section
/-! DEFINITION. ENCODE, the mark/space timing serializer (R130 to R138). -/

namespace Sys2Proof.Machine

/-- The lead-in, entries 0 and 1 (R130). -/
def leadIn : PulseTrain := [{ kind := .mark, dur := leadMarkUs }, { kind := .space, dur := leadSpaceUs }]

/-- The trailing mark and the stop space, entries 66 and 67 (R132). -/
def trailer : PulseTrain := [{ kind := .mark, dur := bitMarkUs }, { kind := .space, dur := stopSpaceUs }]

/-- The space that encodes a bit: 0 is the long space, 1 the short one (R83, R131). -/
def spaceUs (bit : Bool) : Nat := if bit then shortSpaceUs else longSpaceUs

/-- One bit cell: a mark, then the space of the bit (R131). -/
def bitCell (bit : Bool) : PulseTrain :=
  [{ kind := .mark, dur := bitMarkUs }, { kind := .space, dur := spaceUs bit }]

/-- The eight cells of a byte, bit position 0 first (R82, R131). -/
def byteCells (b : Byte) : PulseTrain := (List.range 8).flatMap fun j => bitCell (b.getLsbD j)

/-- `encode(p)`, whole (R133). -/
def encodeTrain (p : Packet) : PulseTrain := leadIn ++ p.bytes.flatMap byteCells ++ trailer

/-- The PULSE word of entry `i` of a train (R80, R135). A train of `encodeTrain` has all 68 entries; a shorter one
would be followed by words of 0. -/
def trainWord (t : PulseTrain) (i : Fin 68) : Word :=
  match t[i.val]? with
  | some e => e.toWord
  | none => 0#32

/-- The sum of a train's durations (R138). -/
def trainUs (t : PulseTrain) : Nat := (t.map PulseEntry.dur).sum

/-- How many of the 32 data bits of a packet are 0 (R138). -/
def zeroBits (p : Packet) : Nat :=
  (p.bytes.map fun b => ((List.range 8).filter fun j => !b.getLsbD j).length).sum

/-- ENCODE (R135): PULSE[0..67], PULSE_LEN = 68, one TX event (R136, R137) and STATUS = OK, or `fault(UninitRead)`
when PACKET is unwritten. -/
def execEncode (s : State) : Host.Outcome State Fault Refusal :=
  match s.packet.read with
  | none => .next (s.raise .uninitRead)
  | some w =>
    let t := encodeTrain (Packet.ofWord w)
    .next ((((s.writeTrain (trainWord t)).writePulseLen (BitVec.ofNat 32 trainLen)).emitTx
      { carrierHz := carrierHz, train := t }).setResult .ok)

end Sys2Proof.Machine
end

