-- ==== Sys2Proof/Machine/Dispatch.lean ====
section
/-! DEFINITION. What each command does: one arm per row of the opcode table. -/

namespace Sys2Proof.Machine

-- R71: the three operations, each one atomic step (R6, R58).
def exec (i : Instr) (s : State) : Host.Outcome State Fault Refusal :=
  match i with
  | .compile => Sys2Proof.Machine.execCompile s
  | .encode => Sys2Proof.Machine.execEncode s
  | .decode => Sys2Proof.Machine.execDecode s

end Sys2Proof.Machine
end

