-- ==== Sys2Proof/Machine/RegMap.lean ====
section
/-! DEFINITION. The register map of the window (R51) and the form a host access must have (R50, R52, R53). -/

namespace Sys2Proof.Machine

/-- A mapped register of the window (R51). -/
inductive Reg where
  | cmd | status | settings | tempC | packet | pulseLen
  /-- One of the ten constant registers (R29). -/
  | const (c : ConstReg)
  /-- PULSE[i] (R28). -/
  | pulse (i : Fin 68)
  deriving DecidableEq, Repr

/-- The offset of a constant register (R29, R51). -/
def ConstReg.offset : ConstReg → Nat
  | .carrierHz => 0x018
  | .leadMarkUs => 0x01C
  | .leadSpaceUs => 0x020
  | .bitMarkUs => 0x024
  | .longSpaceUs => 0x028
  | .shortSpaceUs => 0x02C
  | .stopSpaceUs => 0x030
  | .pktConst => 0x034
  | .modeBits => 0x038
  | .fanBits => 0x03C

/-- The offset of a register in the window: `off(reg)` (R51, R85). -/
def Reg.offset : Reg → Nat
  | .cmd => 0x000
  | .status => 0x004
  | .settings => 0x008
  | .tempC => 0x00C
  | .packet => 0x010
  | .pulseLen => 0x014
  | .const c => c.offset
  | .pulse i => 0x100 + 4 * i.val

/-- The register at an offset; none where R51 maps none. -/
def Reg.ofOffset (off : Nat) : Option Reg :=
  match off with
  | 0x000 => some .cmd
  | 0x004 => some .status
  | 0x008 => some .settings
  | 0x00C => some .tempC
  | 0x010 => some .packet
  | 0x014 => some .pulseLen
  | 0x018 => some (.const .carrierHz)
  | 0x01C => some (.const .leadMarkUs)
  | 0x020 => some (.const .leadSpaceUs)
  | 0x024 => some (.const .bitMarkUs)
  | 0x028 => some (.const .longSpaceUs)
  | 0x02C => some (.const .shortSpaceUs)
  | 0x030 => some (.const .stopSpaceUs)
  | 0x034 => some (.const .pktConst)
  | 0x038 => some (.const .modeBits)
  | 0x03C => some (.const .fanBits)
  | n =>
    if h : 0x100 ≤ n ∧ n < 0x210 ∧ n % 4 = 0 then some (.pulse ⟨(n - 0x100) / 4, by omega⟩) else none

/-- The access reaches the window at `base` (R50), is 32 bits wide (R52) and naturally aligned (R53). An access
outside the window is treated as one to an unmapped offset (DESIGN CHOICE, safe: notes/assumptions/6.md). -/
def HostAccess.formOk (base : Nat) (a : HostAccess) : Bool :=
  decide (base ≤ a.addr) && decide (a.addr < base + 1024) && decide (a.size = 4) &&
    decide ((a.addr - base) % 4 = 0)

/-- The register an access reaches; none where the access is `fault(BadAccess)` (R55). -/
def HostAccess.target (base : Nat) (a : HostAccess) : Option Reg :=
  if a.formOk base then Reg.ofOffset (a.addr - base) else none

end Sys2Proof.Machine
end

