-- ==== Sys2Proof/Machine/Bus.lean ====
section
/-! DEFINITION. What a host access does (R55 to R57), a CMD write and the command it starts included. -/

namespace Sys2Proof.Machine

/-- What a read of a register returns; none where the cell is unwritten (R56). -/
def State.readReg (s : State) : Reg → Option Word
  | .cmd => some 0#32
  | .status => some (resultField s.status)
  | .settings => some ((s.settings.extractLsb' 0 5).setWidth 32)
  | .tempC => s.tempC.read
  | .packet => s.packet.read
  | .pulseLen => some s.pulseLen
  | .const c => some c.value
  | .pulse i => s.pulse[i].read

/-- A host read: the value goes to the host, or `fault(UninitRead)` (R56). It changes no state of the block. -/
def hostRead (r : Reg) (s : State) : State :=
  match s.readReg r with
  | some w => s.reply (bytesOfWord w)
  | none => s.raise .uninitRead

/-- A word written to CMD: the command it selects, as one atomic step (R22, R57), or ILLEGAL_COMMAND (R72). -/
def command (w : Word) (s : State) : Host.Outcome State Fault Refusal :=
  match decodeWord w with
  | .ok i => exec i s
  | .error _ => .next (illegalCommand s)

/-- A host write (R57). STATUS and the constant registers ignore it. -/
def hostWrite (r : Reg) (w : Word) (s : State) : Host.Outcome State Fault Refusal :=
  match r with
  | .cmd => command w s
  | .status => .next s
  | .settings => .next (s.writeSettings w)
  | .tempC => .next (s.writeTempC w)
  | .packet => .next (s.writePacket w)
  | .pulseLen => .next (s.writePulseLen w)
  | .const _ => .next s
  | .pulse i => .next (s.writePulse i w)

/-- One host access: `fault(BadAccess)` where it reaches no register (R55), else the read or the write. -/
def performAccess (a : HostAccess) (s : State) : Host.Outcome State Fault Refusal :=
  match a.target s.params.base with
  | none => .next (s.raise .badAccess)
  | some r =>
    match a with
    | .read _ _ => .next (hostRead r s)
    | .write _ bytes => hostWrite r (wordOfBytes bytes) s

/-- The access `MemWrite(CODEC_BASE + 0x000, 4, w)` that starts a command (R85). -/
def commandAccess (base : Nat) (w : Word) : HostAccess := .write (base + Reg.offset .cmd) (bytesOfWord w)

end Sys2Proof.Machine
end

