-- ==== Sys2Proof/Machine/Step.lean ====
section
/-! DEFINITION. One step of the machine: the host's next access, performed whole (R58, R59). -/

namespace Sys2Proof.Machine

/-- One step. A state whose FAULT is set stops for good, with that reason (R41, R206). With no access pending the
block is idle and holds all its registers (R215). Otherwise the next access is performed. -/
def step (s : State) : Host.Outcome State Fault Refusal :=
  match s.fault with
  | some r => .fault r
  | none =>
    match s.pending with
    | [] => .next s
    | a :: rest => performAccess a (s.setPending rest)

/-- The state whose next access is the CMD write of the table's word: the block fetches no instruction, the host
writes the command word to CMD (R21), so that write is put before the host's other accesses. -/
def State.withFetchWord (s : State) (nbits w : Nat) : State :=
  s.setPending (commandAccess s.params.base (tableWord nbits w) :: s.pending)

end Sys2Proof.Machine
end

