-- ==== Sys2Proof/Machine/HostNotation.lean ====
section
/-! DEFINITION. The notation of host programs (R85) and its pseudo-instructions (R86), as the accesses they stand for. -/

namespace Sys2Proof.Machine

/-- `mode` of `SET`: the source's mode type (R75, R86). -/
inductive HvacMode where
  | cool | dry | fanOnly
  deriving DecidableEq, Repr

/-- `fan` of `SET`: the source's fan type (R76, R86). -/
inductive FanSpeed where
  | low | medium | high
  deriving DecidableEq, Repr

/-- The MODE field value of a mode (R75, R86). -/
def HvacMode.field : HvacMode → Word
  | .cool => 0#32
  | .dry => 1#32
  | .fanOnly => 2#32

/-- The FAN field value of a fan speed (R76, R86). -/
def FanSpeed.field : FanSpeed → Word
  | .low => 0#32
  | .medium => 1#32
  | .high => 2#32

/-- `(fan << 3) | (mode << 1) | power` (R86). -/
def settingsWord (power : Bool) (m : HvacMode) (f : FanSpeed) : Word :=
  (f.field <<< 3) ||| (m.field <<< 1) ||| (if power then 1#32 else 0#32)

/-- `n / d` to the nearest integer, a half to the even one (R86). -/
def roundHalfEven (n d : Nat) : Nat :=
  let q := n / d
  if 2 * (n % d) < d then q
  else if d < 2 * (n % d) then q + 1
  else if q % 2 = 0 then q else q + 1

/-- The exponent of the binary32 a positive rational `n / d` rounds into: that of its leading bit, and no less than
-126, below which the subnormals lie (PRESUMED: IEEE 754, notes/assumptions/11.md). -/
def binary32Exponent (n d : Nat) : Int :=
  let e : Int := (Nat.log2 n : Int) - (Nat.log2 d : Int)
  let e := if n * 2 ^ (-e).toNat < d * 2 ^ e.toNat then e - 1 else e
  if e < -126 then -126 else e

/-- The binary32 pattern nearest the positive rational `n / d`, ties to even (R86); too large a value gives infinity
(PRESUMED: IEEE 754, notes/assumptions/11.md). -/
def binary32Magnitude (n d : Nat) : Nat :=
  let e := binary32Exponent n d
  let m := roundHalfEven (n * 2 ^ (23 - e).toNat) (d * 2 ^ (e - 23).toNat)
  min ((e + 126).toNat * 2 ^ 23 + m) 0x7F800000

/-- `w` of `TEMP <decimal>`: the binary32 pattern nearest the decimal, ties to even (R86). The two zeros are equally
near a decimal 0, and R86 does not say which is meant: the decimal is a rational here, so 0, 0.0 and -0.0 alike give
+0, 0x00000000, and a negative decimal that rounds to zero gives -0, 0x80000000 (DESIGN CHOICE, unsafe:
notes/assumptions/11.md). -/
def binary32OfRat (q : ℚ) : Word :=
  if q.num = 0 then 0#32
  else (if q.num < 0 then 0x80000000#32 else 0#32) ||| BitVec.ofNat 32 (binary32Magnitude q.num.natAbs q.den)

/-- One line of a host program (R85), pseudo-instructions included (R86). -/
inductive HostLine where
  /-- `WR <reg>, <imm32>`, `WR PULSE[<i>], <imm32>` among them. -/
  | wr (r : Reg) (imm : Word)
  /-- `RD <reg>` and `RD PULSE[<i>]`. -/
  | rd (r : Reg)
  /-- `CMD <mnemonic>`, and the bare `COMPILE`, `ENCODE`, `DECODE`. -/
  | cmd (i : Instr)
  /-- `SET power=<0|1>, mode=<m>, fan=<f>`. -/
  | set (power : Bool) (m : HvacMode) (f : FanSpeed)
  /-- `TEMP <decimal>`. -/
  | temp (q : ℚ)
  /-- `MARK <d>` at index i. -/
  | mark (i : Fin 68) (d : Word)
  /-- `SPACE <d>` at index i. -/
  | space (i : Fin 68) (d : Word)
  /-- `TRANSMIT`: COMPILE, then ENCODE. -/
  | transmit
  deriving DecidableEq, Repr

/-- `MemWrite(CODEC_BASE + off(reg), 4, w)` (R85). -/
def writeAccess (base : Nat) (r : Reg) (w : Word) : HostAccess := .write (base + r.offset) (bytesOfWord w)

/-- `MemRead(CODEC_BASE + off(reg), 4)` (R85). -/
def readAccess (base : Nat) (r : Reg) : HostAccess := .read (base + r.offset) 4

/-- The bus transactions of a line (R85, R86). -/
def HostLine.accesses (base : Nat) : HostLine → List HostAccess
  | .wr r imm => [writeAccess base r imm]
  | .rd r => [readAccess base r]
  | .cmd i => [commandAccess base (encode i)]
  | .set p m f => [writeAccess base .settings (settingsWord p m f)]
  | .temp q => [writeAccess base .tempC (binary32OfRat q)]
  | .mark i d => [writeAccess base (.pulse i) (0x80000000#32 ||| d)]
  | .space i d => [writeAccess base (.pulse i) d]
  | .transmit => [commandAccess base (encode .compile), commandAccess base (encode .encode)]

/-- The accesses of a host program, in its order (R59, R85). -/
def hostProgram (base : Nat) (lines : List HostLine) : List HostAccess := lines.flatMap (HostLine.accesses base)

end Sys2Proof.Machine
end

