-- ==== Sys2Proof/WellFormed.lean ====
section
/-! DEFINITION. What makes an instruction and the parameters well formed, as checks that compute.
The form of a host access is checked where the access is performed (`Machine.HostAccess.formOk`). -/

namespace Sys2Proof

/-- An instruction has no register, immediate or mode field (R70), so every instruction is well formed. -/
def Instr.wf : Instr → Bool
  | .compile => true
  | .encode => true
  | .decode => true

/-- `0 <= TOL < 1` (R10), read off the numerator and denominator. -/
def Config.tolOk (tol : ℚ) : Bool := decide (0 ≤ tol.num) && decide (tol.num < tol.den)

/-- `CODEC_BASE` is "any 1024-byte-aligned address" (R9). -/
def Config.baseOk (base : Nat) : Bool := decide (base % 1024 = 0)

/-- The parameters are as R9 and R10 allow them. -/
def Config.Params.wf (p : Config.Params) : Bool := Config.tolOk p.tol && Config.baseOk p.base

end Sys2Proof
end

