-- ==== Sys2Proof/Safety.lean ====
section
/-! DEFINITION. The terms the claims are stated in: what holds of a legal state, the decoder's checks as the spec
words them, and what of a state can be observed. The numbers here are the spec's own, not the constants table's. -/

namespace Sys2Proof.Machine

/-- STATUS holds one of the six codes of R84: 5, 6 and the reserved bits never stand there. -/
abbrev LegalStatus (w : Word) : Prop :=
  w = 0#32 ∨ w = 1#32 ∨ w = 2#32 ∨ w = 3#32 ∨ w = 4#32 ∨ w = 7#32

/-- An event the sink may be handed: 38000 Hz and 68 entries, Mark and Space in turn, the last the stop space
(R30, R133, R211). -/
abbrev LegalEvent (e : TxEvent) : Prop :=
  e.carrierHz = 38000 ∧ e.train.length = 68 ∧
    (∀ n, n < 68 → (e.train[n]?).map PulseEntry.kind = some (if n % 2 = 0 then PulseKind.mark else PulseKind.space)) ∧
    e.train[67]? = some { kind := .space, dur := 4400 }

/-- What every state of a run satisfies: a legal STATUS, the reserved bits of SETTINGS 0 (R24), legal events in
TXLOG, and parameters as R9 and R10 allow them. -/
abbrev State.Legal (s : State) : Prop :=
  LegalStatus s.status ∧ s.settings.toNat < 32 ∧ (∀ e ∈ s.txLog, LegalEvent e) ∧ s.params.wf = true

/-- `nom × (1 - TOL) <= d <= nom × (1 + TOL)` in ℚ (R14). -/
abbrev InWindow (tol : ℚ) (d nom : Nat) : Prop := (nom : ℚ) * (1 - tol) ≤ d ∧ (d : ℚ) ≤ nom * (1 + tol)

/-- `|d - 550| < |d - 1550|`: the space reads as a 1 (R154). -/
abbrev NearerShort (d : Nat) : Prop := |(d : ℤ) - 550| < |(d : ℤ) - 1550|

/-- `|d - 550| > |d - 1550|`: the space reads as a 0 (R154). -/
abbrev NearerLong (d : Nat) : Prop := |(d : ℤ) - 1550| < |(d : ℤ) - 550|

/-- The entry passes the check of position `n` of the train (R152, R153, R154, R156). -/
abbrev PositionPasses (tol : ℚ) (n : Nat) (e : PulseEntry) : Prop :=
  if n = 0 then e.kind = .mark ∧ InWindow tol e.dur 8500
  else if n = 1 ∨ n = 67 then e.kind = .space ∧ InWindow tol e.dur 4400
  else if n % 2 = 0 then e.kind = .mark ∧ InWindow tol e.dur 550
  else e.kind = .space ∧ (InWindow tol e.dur 550 ∨ InWindow tol e.dur 1550) ∧
    (NearerShort e.dur ∨ NearerLong e.dur)

/-- The code STATUS gets where the check of position `n` is the first to fail (R152, R153, R154, R156, R84). -/
def positionCode (n : Nat) : Word := if n < 2 then 2#32 else if n < 66 then 3#32 else 4#32

/-- Entry `n` of the buffer as R159 reads it, if it was ever written. -/
def entryAt (buf : Vector Cell 68) (n : Nat) : Option PulseEntry :=
  match buf[n]? with
  | none => none
  | some c =>
    if c.written then
      some { kind := if c.word.getLsbD 31 then .mark else .space, dur := c.word.toNat % 2 ^ 31 }
    else none

/-- Every position before `n` is written and passes its check. -/
abbrev PassesBefore (tol : ℚ) (buf : Vector Cell 68) (n : Nat) : Prop :=
  ∀ m, m < n → ∃ e ∈ entryAt buf m, PositionPasses tol m e

/-- No fault so far, and the host's next access is `a`. -/
abbrev State.Next (s : State) (a : HostAccess) (rest : List HostAccess) : Prop :=
  s.fault = none ∧ s.pending = a :: rest

/-- The access is 4 bytes wide, aligned, and at an offset R51 maps a register to (R50 to R53). -/
abbrev GoodAccess (base : Nat) (a : HostAccess) : Prop :=
  a.size = 4 ∧ base ≤ a.addr ∧ (a.addr - base) % 4 = 0 ∧
    (a.addr - base < 0x40 ∨ (0x100 ≤ a.addr - base ∧ a.addr - base < 0x210))

/-- The constant registers' values, from the table of R29. -/
def specConst : ConstReg → Word
  | .carrierHz => 0x00009470#32
  | .leadMarkUs => 0x00002134#32
  | .leadSpaceUs => 0x00001130#32
  | .bitMarkUs => 0x00000226#32
  | .longSpaceUs => 0x0000060E#32
  | .shortSpaceUs => 0x00000226#32
  | .stopSpaceUs => 0x00001130#32
  | .pktConst => 0x0032A848#32
  | .modeBits => 0x00804010#32
  | .fanBits => 0x00080402#32

/-- What a read of a register returns, by the list of R56; none is `fault(UninitRead)`. -/
def State.specRead (s : State) : Reg → Option Word
  | .cmd => some 0#32
  | .status => some (s.status &&& 0x7#32)
  | .settings => some (s.settings &&& 0x1F#32)
  | .tempC => if s.tempC.written then some s.tempC.word else none
  | .packet => if s.packet.written then some s.packet.word else none
  | .pulseLen => some s.pulseLen
  | .const c => some (specConst c)
  | .pulse i => if s.pulse[i].written then some s.pulse[i].word else none

/-- The `mode_bit` of R100, from the field's number. -/
def specModeBit (mode : Nat) : Nat := if mode = 1 then 0x40 else if mode = 2 then 0x80 else 0x10

/-- The `fan_bit` of R101, from the field's number. -/
def specFanBit (fan : Nat) : Nat := if fan = 1 then 0x04 else if fan = 2 then 0x08 else 0x02

/-- `w[31]` of a binary32 pattern (R77). -/
def specSign (w : Word) : Nat := w.toNat / 2 ^ 31
/-- `w[30:23]` (R77). -/
def specExp (w : Word) : Nat := w.toNat / 2 ^ 23 % 256
/-- `w[22:0]` (R77). -/
def specFraction (w : Word) : Nat := w.toNat % 2 ^ 23

/-- The pattern is a NaN (R77). -/
abbrev IsNaN (w : Word) : Prop := specExp w = 255 ∧ specFraction w ≠ 0

/-- The value of a finite pattern, the two first lines of R77. -/
def specFloat (w : Word) : ℚ :=
  if specExp w = 0 then (-1) ^ specSign w * specFraction w * (2 : ℚ) ^ (-149 : ℤ)
  else (-1) ^ specSign w * (1 + specFraction w / 2 ^ 23) * (2 : ℚ) ^ ((specExp w : ℤ) - 127)

/-- `byte3` of a finite temperature (R105, R106): clamped, converted, rounded half up, in ℚ. -/
def specSetpoint (t : ℚ) : ℤ := ⌊max (1667 / 100) (min 30 t) * (9 / 5) + 32 + 1 / 2⌋

/-- `b` is byte 3 of the packet compiled from the temperature `w` when `draw()` gives `d` (R105 to R107). -/
abbrev SpecByte3 (w : Word) (d b : Byte) : Prop :=
  (IsNaN w → b = d) ∧
  (specExp w = 255 → specFraction w = 0 → b.toNat = if specSign w = 1 then 62 else 86) ∧
  (specExp w ≠ 255 → (b.toNat : ℤ) = specSetpoint (specFloat w))

/-- Entry `i` of the train of a packet word, by the layout table of R81; data bit k is bit k of the word
(R79, R82), and a 0 is the long space (R83). -/
def specEntry (w : Word) (i : Nat) : PulseEntry :=
  if i = 0 then { kind := .mark, dur := 8500 }
  else if i = 1 ∨ i = 67 then { kind := .space, dur := 4400 }
  else if i % 2 = 0 then { kind := .mark, dur := 550 }
  else { kind := .space, dur := if w.getLsbD ((i - 3) / 2) then 550 else 1550 }

/-- The 68 entries of `encode(p)` for the packet word `w` (R81). -/
def specTrain (w : Word) : PulseTrain := (List.range 68).map (specEntry w)

/-- The PULSE words of the train, by the words R80 lists. -/
def specPulseWord (w : Word) (i : Nat) : Word :=
  if i = 0 then 0x80002134#32
  else if i = 1 ∨ i = 67 then 0x00001130#32
  else if i % 2 = 0 then 0x80000226#32
  else if w.getLsbD ((i - 3) / 2) then 0x00000226#32 else 0x0000060E#32

/-- How many of bits 0 to 31 of a packet word are 0 (R138). -/
def specZeroBits (w : Word) : Nat := ((List.range 32).filter fun k => !w.getLsbD k).length

/-- A cell without the word it holds while unwritten. -/
def Cell.observed (c : Cell) : Cell := if c.written then c else Cell.unwritten

/-- A state without the words its unwritten cells hold: all that a host, a command or the sink can tell apart. -/
def State.observed (s : State) : State :=
  { s with tempC := s.tempC.observed, packet := s.packet.observed, pulse := s.pulse.map Cell.observed }

/-- The observed part of an outcome. -/
def observedOutcome : Host.Outcome State Fault Refusal → Host.Outcome State Fault Refusal
  | .next s => .next s.observed
  | .fault r => .fault r
  | .refused r => .refused r

end Sys2Proof.Machine
end

