-- ==== Sys2Proof/Certificates/Slice0/Obligations.lean ====
section
/-! DEFINITION. The statements for the provers. Where a statement speaks of `pending`, `replies` or `draws`, it speaks
of the model's own fields (notes/assumptions/1.md and 7.md); where it speaks of the outcome `fault`, of the model's
reading of FAULT (notes/assumptions/3.md). -/

open Sys2Proof Sys2Proof.Machine

-- The command word

/-- R71, opcodes: the three words, and their bytes on the bus, decode to their commands. -/
def Obligations.CommandWordsDecode : Prop :=
  decodeWord 0x00000001#32 = .ok .compile ∧ decodeWord 0x00000002#32 = .ok .encode ∧
  decodeWord 0x00000003#32 = .ok .decode ∧
  decodeBytes [0x01#8, 0x00#8, 0x00#8, 0x00#8] = .ok (.compile, []) ∧
  decodeBytes [0x02#8, 0x00#8, 0x00#8, 0x00#8] = .ok (.encode, []) ∧
  decodeBytes [0x03#8, 0x00#8, 0x00#8, 0x00#8] = .ok (.decode, []) ∧
  decodeBytes [0x00#8, 0x00#8, 0x00#8, 0x01#8] = .error (.illegalWord 0x01000000#32)

/-- R70: decoding an encoded instruction gives it back, and no other word decodes to it (all 32 bits count). -/
def Obligations.EncodedCommandsDecodeToThemselves : Prop :=
  ∀ i : Instr, i.wf = true → (∀ rest, decodeBytes (encodeBytes i ++ rest) = .ok (i, rest)) ∧
    ∀ w, decodeWord w = .ok i ↔ w = Sys2Proof.encode i

/-- R72: every word but 1, 2 and 3 writes STATUS = 7 and nothing else; no fault is raised. -/
def Obligations.IllegalWordSetsOnlyStatus : Prop :=
  ∀ (w : Word) (s : State), w ≠ 1#32 → w ≠ 2#32 → w ≠ 3#32 → command w s = .next { s with status := 7#32 }

-- The step

/-- A step runs the decoded instruction: four bytes the decoder reads as `i`, written to CMD, are `exec i` on the
state whose pending accesses have moved past that write. -/
def Obligations.StepRunsTheDecodedInstruction : Prop :=
  ∀ (s : State) (i : Instr) (bytes : List Byte) (rest : List HostAccess),
    s.Next (.write (s.params.base + 0x000) bytes) rest → bytes.length = 4 → decodeBytes bytes = .ok (i, []) →
      step s = exec i { s with pending := rest }

/-- The model's choice (notes/assumptions/10.md): the table's word placed by `withFetchWord` is what the very next
step runs. -/
def Obligations.PlacedTableWordRuns : Prop :=
  ∀ (s : State) (w : Nat) (i : Instr), s.fault = none → decodeTableWord 32 w = some i →
    step (s.withFetchWord 32 w) = exec i s

/-- R215, and the model's choice (notes/assumptions/2.md): with no access pending a step changes nothing. -/
def Obligations.IdleBlockHoldsItsRegisters : Prop :=
  ∀ s : State, s.fault = none → s.pending = [] → step s = .next s

/-- R206, and the model's choice (notes/assumptions/3.md): a state whose FAULT is set stops with that reason. -/
def Obligations.FaultedStateStops : Prop :=
  ∀ (s : State) (r : Fault), s.fault = some r → step s = .fault r

/-- R6, R41, R205, R206, R207, and the model's reading of FAULT (notes/assumptions/3.md): every command, on every
state, answers some next state (whether FAULT is set there, UnwrittenOperandFaults and DecodeFaultsAtAnUnwrittenEntry
say); a step stops in a state whose FAULT is set and in no other, and refuses nothing. -/
def Obligations.OnlyFaultedStatesStop : Prop :=
  (∀ (i : Instr) (s : State), ∃ t, exec i s = .next t) ∧
  ∀ s : State, (∀ r, step s = .fault r ↔ s.fault = some r) ∧ ∀ r, step s ≠ .refused r

/-- R41: no command and no access clears FAULT, from whatever state it is performed. -/
def Obligations.FaultMarkIsNeverCleared : Prop :=
  (∀ (i : Instr) (s t : State), exec i s = .next t → s.fault ≠ none → t.fault ≠ none) ∧
  ∀ (a : HostAccess) (s t : State), performAccess a s = .next t → s.fault ≠ none → t.fault ≠ none

/-- R11, R41, R55: an access that sets FAULT changes nothing else (but that the host's accesses move on). -/
def Obligations.FaultingAccessChangesNothingElse : Prop :=
  ∀ s t : State, step s = .next t → t.fault ≠ none → t = { s with pending := s.pending.tail, fault := t.fault }

-- The window

/-- R51: the offsets, and that the map finds each register at its own offset and nothing anywhere else. -/
def Obligations.RegisterMapIsTheTable : Prop :=
  (∀ r : Reg, r.offset = match r with
    | .cmd => 0x000 | .status => 0x004 | .settings => 0x008 | .tempC => 0x00C | .packet => 0x010
    | .pulseLen => 0x014 | .const .carrierHz => 0x018 | .const .leadMarkUs => 0x01C
    | .const .leadSpaceUs => 0x020 | .const .bitMarkUs => 0x024 | .const .longSpaceUs => 0x028
    | .const .shortSpaceUs => 0x02C | .const .stopSpaceUs => 0x030 | .const .pktConst => 0x034
    | .const .modeBits => 0x038 | .const .fanBits => 0x03C | .pulse i => 0x100 + 4 * i.val) ∧
  ∀ (off : Nat) (r : Reg), Reg.ofOffset off = some r ↔ r.offset = off

/-- R54: the byte at lane k is bits [8k+7:8k], lane 0 first; the four lanes give the word back; and packet byte i is
lane i. -/
def Obligations.ByteLanesAreLittleEndian : Prop :=
  ∀ w : Word, bytesOfWord w = [w.extractLsb' 0 8, w.extractLsb' 8 8, w.extractLsb' 16 8, w.extractLsb' 24 8] ∧
    wordOfBytes (bytesOfWord w) = w ∧ (Packet.ofWord w).bytes = bytesOfWord w

/-- R55: an access of a size other than 4, misaligned, or to an unmapped offset of the window sets
FAULT = BadAccess, has no other effect on the block and returns no value. -/
def Obligations.BadAccessFaults : Prop :=
  ∀ (s : State) (a : HostAccess) (rest : List HostAccess) (off : Nat), s.Next a rest →
    a.addr = s.params.base + off → off < 1024 →
    (a.size ≠ 4 ∨ off % 4 ≠ 0 ∨ ¬(off < 0x40 ∨ (0x100 ≤ off ∧ off < 0x210))) →
      step s = .next { s with pending := rest, fault := some .badAccess }

/-- R51 to R53, R209: an access in the form the spec allows is never BadAccess, in any state; every other access
is (outside the window by the model's choice, notes/assumptions/6.md). -/
def Obligations.OnlyBadAccessesAreBadAccess : Prop :=
  ∀ (s t : State) (a : HostAccess) (rest : List HostAccess), s.Next a rest → step s = .next t →
    (t.fault = some .badAccess ↔ ¬GoodAccess s.params.base a)

/-- R56: a read returns the register's value to the host and changes no state of the block, or, of an unwritten
cell, sets FAULT = UninitRead and returns nothing. -/
def Obligations.HostReadReturnsTheRegister : Prop :=
  ∀ (s : State) (r : Reg) (rest : List HostAccess), s.Next (.read (s.params.base + r.offset) 4) rest →
    step s = match s.specRead r with
      | some v => .next { s with pending := rest, replies := s.replies ++ [bytesOfWord v] }
      | none => .next { s with pending := rest, fault := some .uninitRead }

/-- R57: what a write of each register does. -/
def Obligations.HostWriteDoesWhatTheTableSays : Prop :=
  ∀ (s : State) (r : Reg) (w : Word) (rest : List HostAccess),
    s.Next (.write (s.params.base + r.offset) (bytesOfWord w)) rest →
    step s = (let u := { s with pending := rest }
      match r with
      | .cmd =>
        if w = 1#32 then exec .compile u else if w = 2#32 then exec .encode u
        else if w = 3#32 then exec .decode u else .next { u with status := 7#32 }
      | .status => .next u
      | .settings => .next { u with settings := w &&& 0x1F#32 }
      | .tempC => .next { u with tempC := { word := w, written := true } }
      | .packet => .next { u with packet := { word := w, written := true } }
      | .pulseLen => .next { u with pulseLen := w }
      | .const _ => .next u
      | .pulse i => .next { u with pulse := u.pulse.set i { word := w, written := true } })

/-- R29: the constant registers stand at the table's offsets, hold the table's words in every state, and ignore
writes. -/
def Obligations.ConstantRegistersAreFixed : Prop :=
  ∀ (s : State) (c : ConstReg),
    (Reg.const c).offset = (match c with
      | .carrierHz => 0x018 | .leadMarkUs => 0x01C | .leadSpaceUs => 0x020 | .bitMarkUs => 0x024
      | .longSpaceUs => 0x028 | .shortSpaceUs => 0x02C | .stopSpaceUs => 0x030 | .pktConst => 0x034
      | .modeBits => 0x038 | .fanBits => 0x03C) ∧
    s.readReg (.const c) = some (specConst c) ∧ ∀ w, hostWrite (.const c) w s = .next s

/-- R34, R22 to R28: which accesses can change which register: SETTINGS and TEMP_C only a host write of them, PACKET
one of it or COMPILE or DECODE, PULSE_LEN and PULSE one of them or ENCODE, STATUS only a CMD write. -/
def Obligations.RegistersChangeOnlyAsTheSummarySays : Prop :=
  ∀ (s t : State), step s = .next t →
    let writes (off : Nat) : Prop := ∃ bytes rest, s.Next (.write (s.params.base + off) bytes) rest
    let runs (i : Instr) : Prop := ∃ rest, s.Next (.write (s.params.base + 0x000) (encodeBytes i)) rest
    (t.settings ≠ s.settings → writes 0x008) ∧
    (t.tempC ≠ s.tempC → writes 0x00C) ∧
    (t.packet ≠ s.packet → writes 0x010 ∨ runs .compile ∨ runs .decode) ∧
    (t.pulseLen ≠ s.pulseLen → writes 0x014 ∨ runs .encode) ∧
    (∀ i : Fin 68, t.pulse[i] ≠ s.pulse[i] → writes (0x100 + 4 * i.val) ∨ runs .encode) ∧
    (t.status ≠ s.status → writes 0x000)

/-- R40: no access and no command clears a written flag. -/
def Obligations.WrittenFlagsAreNeverCleared : Prop :=
  ∀ (s t : State), step s = .next t →
    (s.tempC.written = true → t.tempC.written = true) ∧ (s.packet.written = true → t.packet.written = true) ∧
    ∀ i : Fin 68, s.pulse[i].written = true → t.pulse[i].written = true

/-- R9, R10: no step changes TOL or CODEC_BASE; TOL is 1/4 unless the platform fixes another. -/
def Obligations.ParametersNeverChange : Prop :=
  State.reset.params.tol = 1 / 4 ∧ ∀ s t : State, step s = .next t → t.params = s.params

-- COMPILE

/-- R77: the temperature a pattern stands for. -/
def Obligations.TemperatureIsTheBinary32Value : Prop :=
  ∀ w : Word, match Temp.ofWord w with
    | .finite q => specExp w ≠ 255 ∧ q.toRat = specFloat w
    | .inf neg => specExp w = 255 ∧ specFraction w = 0 ∧ (neg = true ↔ specSign w = 1)
    | .nan => specExp w = 255 ∧ specFraction w ≠ 0

/-- R13: `roundHalfAway` is the nearest integer, a half going to the one of larger magnitude, and `floor(x + 1/2)`
for `x >= 0`. -/
def Obligations.RoundingIsHalfAwayFromZero : Prop :=
  ∀ a : Frac, 0 < a.den →
    |a.toRat - a.roundHalfAway| ≤ 1 / 2 ∧ (|a.toRat - a.roundHalfAway| = 1 / 2 → |a.toRat| < |(a.roundHalfAway : ℚ)|) ∧
    (0 ≤ a.toRat → a.roundHalfAway = ⌊a.toRat + 1 / 2⌋)

/-- R108: the setpoint byte of every temperature but a NaN is 62 to 86, and a finite temperature gives `n` exactly
where it lies in the interval the table gives `n`. -/
def Obligations.SetpointIntervals : Prop :=
  ∀ (settings w : Word) (d : Byte), ¬IsNaN w →
    62 ≤ (compilePacket settings w d).b3.toNat ∧ (compilePacket settings w d).b3.toNat ≤ 86 ∧
    (specExp w ≠ 255 → ∀ n : Nat, 62 ≤ n → n ≤ 86 →
      ((compilePacket settings w d).b3.toNat = n ↔
        (n = 62 ∨ (2 * (n : ℚ) - 65) * (5 / 18) ≤ specFloat w) ∧
        (n = 86 ∨ specFloat w < (2 * ((n : ℚ) + 1) - 65) * (5 / 18))))

/-- R108: among the binary32 inputs COMPILE reads, only 17.5, 22.5 and 27.5 fall exactly on a bound of the table. -/
def Obligations.OnlyThreeInputsAreExactHalves : Prop :=
  ∀ w : Word,
    (∃ q : Frac, Temp.ofWord w = .finite q ∧
      ∃ n : Nat, 63 ≤ n ∧ n ≤ 86 ∧ q.toRat = (2 * (n : ℚ) - 65) * (5 / 18)) ↔
    w = 0x418C0000#32 ∨ w = 0x41B40000#32 ∨ w = 0x41DC0000#32

/-- R100 to R107, R109, R110: COMPILE, once TEMP_C is written: byte 0 the header, byte 1 the mode bit OR the fan bit,
byte 2 the power constant, byte 3 the rounded Fahrenheit setpoint, or for a NaN the drawn byte; STATUS = OK. The drawn
byte as `Config.freeByte` of the counter `draws` is the model's choice (notes/assumptions/7.md). -/
def Obligations.CompileWritesPacketAndStatus : Prop :=
  ∀ s : State, s.tempC.written = true →
    ∃ b1 b2 b3 : Byte,
      b1.toNat = (specModeBit (s.settings.toNat / 2 % 4) ||| specFanBit (s.settings.toNat / 8 % 4)) ∧
      b2 = (if s.settings.toNat % 2 = 1 then 0xA8#8 else 0x32#8) ∧
      SpecByte3 s.tempC.word (Config.freeByte s.draws) b3 ∧
      exec .compile s = .next { s with
        packet := { word := b3 ++ b2 ++ b1 ++ 0x48#8, written := true }
        status := 0#32
        draws := if IsNaN s.tempC.word then s.draws + 1 else s.draws }

/-- R102: byte 1 is the OR, which is also the sum, of one mode bit and one fan bit, so exactly two of its bits are
set; and its nine values. -/
def Obligations.ModeFanByteHasOneModeAndOneFanBit : Prop :=
  ∀ (settings w : Word) (d : Byte),
    (compilePacket settings w d).b1 = modeBit (modeField settings) ||| fanBit (fanField settings) ∧
    (compilePacket settings w d).b1 = modeBit (modeField settings) + fanBit (fanField settings) ∧
    ((List.range 8).filter fun j => (compilePacket settings w d).b1.getLsbD j).length = 2 ∧
    (compilePacket settings w d).b1 =
      match (modeField settings).toNat, (fanField settings).toNat with
      | 1, 1 => 0x44#8 | 1, 2 => 0x48#8 | 1, _ => 0x42#8
      | 2, 1 => 0x84#8 | 2, 2 => 0x88#8 | 2, _ => 0x82#8
      | _, 1 => 0x14#8 | _, 2 => 0x18#8 | _, _ => 0x12#8

/-- From R102 and R104: byte 1 does not depend on POWER (that it is the byte of R102 is said by the statement before). -/
def Obligations.PowerOffKeepsModeAndFan : Prop :=
  ∀ (settings settings' w w' : Word) (d d' : Byte), settings >>> 1 = settings' >>> 1 →
    (compilePacket settings w d).b1 = (compilePacket settings' w' d').b1

/-- R41, R110, R135: COMPILE with TEMP_C unwritten and ENCODE with PACKET unwritten set FAULT = UninitRead and change
nothing else. -/
def Obligations.UnwrittenOperandFaults : Prop :=
  (∀ s : State, s.tempC.written = false → exec .compile s = .next { s with fault := some .uninitRead }) ∧
  ∀ s : State, s.packet.written = false → exec .encode s = .next { s with fault := some .uninitRead }

/-- COMPILE's frame (R110): it changes PACKET and STATUS, and the model's draw count for a NaN; FAULT only where
TEMP_C is unwritten; and every other register of the window reads as before. -/
def Obligations.CompileFrame : Prop :=
  ∀ s t : State, exec .compile s = .next t →
    t.settings = s.settings ∧ t.tempC = s.tempC ∧ t.pulseLen = s.pulseLen ∧ t.pulse = s.pulse ∧
    t.txLog = s.txLog ∧ t.params = s.params ∧ t.pending = s.pending ∧ t.replies = s.replies ∧
    (s.tempC.written = true → t.fault = s.fault) ∧ (¬IsNaN s.tempC.word → t.draws = s.draws) ∧
    ∀ r : Reg, r ≠ .status → r ≠ .packet → t.readReg r = s.readReg r

-- ENCODE

/-- R81: the train of every packet, entry by entry, its length 68, and data bit k, which is bit k mod 8 of packet byte
k div 8. -/
def Obligations.EncodedTrainHasTheLayout : Prop :=
  ∀ p : Packet, encodeTrain p = specTrain p.toWord ∧ (encodeTrain p).length = 68 ∧
    ∀ k, k < 32 → (p.bytes[k / 8]?).map (fun b => b.getLsbD (k % 8)) = some (p.toWord.getLsbD k)

/-- R138: the train's durations add up to 53050 + 1000 × the number of 0 bits. -/
def Obligations.TransmissionDuration : Prop :=
  ∀ p : Packet, trainUs (encodeTrain p) = 53050 + 1000 * specZeroBits p.toWord ∧
    zeroBits p = specZeroBits p.toWord

/-- R133, R135, R136: ENCODE, once PACKET is written: all 68 PULSE words and flags, PULSE_LEN = 68, one event
TX(38000, train) at the end of TXLOG, STATUS = OK. -/
def Obligations.EncodeWritesTheTrainAndTransmits : Prop :=
  ∀ s : State, s.packet.written = true →
    ∃ buf : Vector Cell 68,
      (∀ i : Fin 68, buf[i] = { word := specPulseWord s.packet.word i, written := true }) ∧
      exec .encode s = .next { s with
        pulse := buf
        pulseLen := 68#32
        txLog := s.txLog ++ [{ carrierHz := 38000, train := specTrain s.packet.word }]
        status := 0#32 }

/-- ENCODE's frame (R135): it changes PULSE, PULSE_LEN, TXLOG and STATUS; FAULT only where PACKET is unwritten; and
every other register of the window reads as before. -/
def Obligations.EncodeFrame : Prop :=
  ∀ s t : State, exec .encode s = .next t →
    t.settings = s.settings ∧ t.tempC = s.tempC ∧ t.packet = s.packet ∧ t.params = s.params ∧
    t.draws = s.draws ∧ t.pending = s.pending ∧ t.replies = s.replies ∧
    (s.packet.written = true → t.fault = s.fault) ∧
    ∀ r : Reg, r ≠ .status → r ≠ .pulseLen → (∀ i, r ≠ .pulse i) → t.readReg r = s.readReg r

/-- R30, R136: a step leaves TXLOG as it is, or is an ENCODE of a written PACKET that appends exactly its train. -/
def Obligations.OnlyEncodeTransmits : Prop :=
  ∀ s t : State, step s = .next t →
    t.txLog = s.txLog ∨
    (∃ rest, s.Next (.write (s.params.base + 0x000) (encodeBytes .encode)) rest) ∧ s.packet.written = true ∧
      t.txLog = s.txLog ++ [{ carrierHz := 38000, train := specTrain s.packet.word }]

-- DECODE

/-- R14: the window test is the one in ℚ, whatever TOL is. -/
def Obligations.WindowIsTheRationalOne : Prop :=
  ∀ (tol : ℚ) (d nom : Nat), within tol d nom = true ↔ (nom : ℚ) * (1 - tol) ≤ d ∧ (d : ℚ) ≤ nom * (1 + tol)

/-- R161: the windows at TOL = 1/4, exact and as integer ranges, and how a bit space is classified. -/
def Obligations.DefaultWindows : Prop :=
  ∀ d : Nat,
    (InWindow (1 / 4) d 8500 ↔ (6375 : ℚ) ≤ d ∧ (d : ℚ) ≤ 10625) ∧
    (InWindow (1 / 4) d 4400 ↔ (3300 : ℚ) ≤ d ∧ (d : ℚ) ≤ 5500) ∧
    (InWindow (1 / 4) d 550 ↔ (825 / 2 : ℚ) ≤ d ∧ (d : ℚ) ≤ 1375 / 2) ∧
    (InWindow (1 / 4) d 1550 ↔ (2325 / 2 : ℚ) ≤ d ∧ (d : ℚ) ≤ 3875 / 2) ∧
    (within (1 / 4) d 8500 = true ↔ 6375 ≤ d ∧ d ≤ 10625) ∧
    (within (1 / 4) d 4400 = true ↔ 3300 ≤ d ∧ d ≤ 5500) ∧
    (within (1 / 4) d 550 = true ↔ 413 ≤ d ∧ d ≤ 687) ∧
    (within (1 / 4) d 1550 = true ↔ 1163 ≤ d ∧ d ≤ 1937) ∧
    (classify (1 / 4) d = .ok true ↔ 413 ≤ d ∧ d ≤ 687) ∧
    (classify (1 / 4) d = .ok false ↔ 1163 ≤ d ∧ d ≤ 1937) ∧
    (classify (1 / 4) d = .error (.err .ambiguousBit) ↔
      d ≤ 412 ∨ (688 ≤ d ∧ d ≤ 1162) ∨ 1938 ≤ d)

/-- R154 at every tolerance: inside either window a space reads as the nominal it is nearer to, and every other space
is AMBIGUOUS_BIT. R162: below 10/31 classification is window membership; at 10/31 the tie at 1050 lies inside the long
window and fails; at 1/2 a space of 900 lies in the long window only and still reads as a 1. -/
def Obligations.ClassificationIsByNearness : Prop :=
  (∀ (tol : ℚ) (d : Nat),
    (classify tol d = .ok true ↔ (InWindow tol d 550 ∨ InWindow tol d 1550) ∧ NearerShort d) ∧
    (classify tol d = .ok false ↔ (InWindow tol d 550 ∨ InWindow tol d 1550) ∧ NearerLong d) ∧
    (classify tol d = .error (.err .ambiguousBit) ↔
      ¬((InWindow tol d 550 ∨ InWindow tol d 1550) ∧ (NearerShort d ∨ NearerLong d)))) ∧
  (∀ (tol : ℚ) (d : Nat), 0 ≤ tol → tol < 10 / 31 →
    (classify tol d = .ok true ↔ within tol d 550 = true) ∧
    (classify tol d = .ok false ↔ within tol d 1550 = true)) ∧
  (∀ tol : ℚ, classify tol 1050 = .error (.err .ambiguousBit)) ∧ within (10 / 31) 1050 1550 = true ∧
  within (1 / 2) 900 1550 = true ∧ within (1 / 2) 900 550 = false ∧ classify (1 / 2) 900 = .ok true

/-- R151: a PULSE_LEN other than 68 is MALFORMED_LENGTH, and no entry is read. -/
def Obligations.DecodeRejectsWrongLength : Prop :=
  ∀ s : State, s.pulseLen ≠ 68#32 → exec .decode s = .next { s with status := 1#32 }

/-- R150, R152 to R154, R156, R202: with PULSE_LEN = 68, the first position whose check fails, all before it having
passed, decides the code: 2 for the lead-in, 3 for a bit cell, 4 for the trailer; only STATUS changes. -/
def Obligations.DecodeReportsTheFirstFailingCheck : Prop :=
  ∀ (s : State) (n : Nat) (e : PulseEntry), s.pulseLen = 68#32 → n < 68 →
    PassesBefore s.params.tol s.pulse n → entryAt s.pulse n = some e → ¬PositionPasses s.params.tol n e →
      exec .decode s = .next { s with status := positionCode n }

/-- R41, R158, R159: with PULSE_LEN = 68, an unwritten entry that the checks reach sets FAULT = UninitRead, and
nothing else changes. -/
def Obligations.DecodeFaultsAtAnUnwrittenEntry : Prop :=
  ∀ (s : State) (n : Nat), s.pulseLen = 68#32 → n < 68 → PassesBefore s.params.tol s.pulse n →
    entryAt s.pulse n = none → exec .decode s = .next { s with fault := some .uninitRead }

/-- R155, R157: if every check passes, PACKET gets the word whose bit k is cell k's bit (byte k div 8, bit k mod 8),
whatever those bytes are, and STATUS = OK. -/
def Obligations.DecodeReturnsTheAssembledPacket : Prop :=
  ∀ (s : State) (w : Word), s.pulseLen = 68#32 → PassesBefore s.params.tol s.pulse 68 →
    (∀ k, k < 32 → ∀ e ∈ entryAt s.pulse (3 + 2 * k), w.getLsbD k = decide (NearerShort e.dur)) →
      exec .decode s = .next { s with packet := { word := w, written := true }, status := 0#32 } ∧
      ∀ k, k < 32 → ((Packet.ofWord w).bytes[k / 8]?).map (fun b => b.getLsbD (k % 8)) = some (w.getLsbD k)

/-- DECODE's frame (R159): it changes STATUS and, with STATUS = OK, PACKET; FAULT only where an entry is unwritten;
and every other register of the window reads as before. -/
def Obligations.DecodeFrame : Prop :=
  ∀ s t : State, exec .decode s = .next t →
    t.settings = s.settings ∧ t.tempC = s.tempC ∧ t.pulseLen = s.pulseLen ∧ t.pulse = s.pulse ∧
    t.txLog = s.txLog ∧ t.params = s.params ∧ t.draws = s.draws ∧ t.pending = s.pending ∧ t.replies = s.replies ∧
    (t.packet ≠ s.packet → t.status = 0#32) ∧
    ((∀ i : Fin 68, s.pulse[i].written = true) → t.fault = s.fault) ∧
    ∀ r : Reg, r ≠ .status → r ≠ .packet → t.readReg r = s.readReg r

/-- R204, R200: a CMD write completes with OK, or writes nothing but STATUS, or only sets FAULT. -/
def Obligations.ErrorResultsWriteOnlyStatus : Prop :=
  ∀ (w : Word) (s t : State), command w s = .next t →
    (t.status = 0#32 ∧ t.fault = s.fault) ∨ t = { s with status := t.status } ∨
      t = { s with fault := some .uninitRead }

/-- R160: for every packet and every tolerance from 0 to below 1, decoding the encoded train gives the packet back,
and so it does for every compiled packet, a NaN's drawn byte included. -/
def Obligations.DecodeInvertsEncode : Prop :=
  ∀ tol : ℚ, 0 ≤ tol → tol < 1 →
    (∀ p : Packet, decodeTrain tol (encodeTrain p) 68 = .ok p) ∧
    ∀ (settings w : Word) (d : Byte),
      decodeTrain tol (encodeTrain (compilePacket settings w d)) 68 = .ok (compilePacket settings w d)

/-- R160 on the registers: COMPILE, then ENCODE, then DECODE, with PACKET overwritten in between by any word, leave
in PACKET the word COMPILE produced, and STATUS = OK. -/
def Obligations.CompileEncodeDecodeRestoresThePacket : Prop :=
  ∀ (s : State) (w : Word), s.tempC.written = true → 0 ≤ s.params.tol →
    ∃ a b c, exec .compile s = .next a ∧ exec .encode a = .next b ∧
      exec .decode { b with packet := { word := w, written := true } } = .next c ∧
      c.packet = a.packet ∧ c.status = 0#32 ∧ c.fault = s.fault

-- The whole machine

/-- A legal state steps to legal states only (R9, R10, R24, R30, R84, R133, R211). -/
def Obligations.LegalStatesStepToLegalStates : Prop :=
  ∀ s t : State, s.Legal → step s = .next t → t.Legal

/-- The state after reset is legal. -/
def Obligations.ResetStateIsLegal : Prop := State.reset.Legal

/-- R230: the values the spec gives at reset. -/
def Obligations.ResetState : Prop :=
  State.reset.status = 0#32 ∧ State.reset.settings = 0#32 ∧ State.reset.pulseLen = 0#32 ∧
  State.reset.tempC.written = false ∧ State.reset.packet.written = false ∧
  (∀ i : Fin 68, State.reset.pulse[i].written = false) ∧ State.reset.txLog = [] ∧ State.reset.fault = none ∧
  ∀ c : ConstReg, State.reset.readReg (.const c) = some (specConst c)

/-- R40, R41, and the model's word for an unwritten cell (notes/assumptions/4.md): two states that differ at most in
the words of unwritten cells step to outcomes that differ at most in them, so that word is never seen. -/
def Obligations.UnwrittenWordsAreNeverSeen : Prop :=
  ∀ s t : State, s.observed = t.observed → observedOutcome (step s) = observedOutcome (step t)

-- Data formats

/-- R79: byte i of the packet is bits [8i+7:8i] of the PACKET word, both ways, and the spec's example. -/
def Obligations.PacketWordRoundTrip : Prop :=
  (∀ p : Packet, Packet.ofWord p.toWord = p) ∧ (∀ w : Word, (Packet.ofWord w).toWord = w) ∧
  (∀ p : Packet, p.toWord.toNat = p.b3.toNat * 2 ^ 24 + p.b2.toNat * 2 ^ 16 + p.b1.toNat * 2 ^ 8 + p.b0.toNat) ∧
  Packet.toWord { b0 := 0x48#8, b1 := 0x10#8, b2 := 0xA8#8, b3 := 75#8 } = 0x4BA81048#32

/-- R80: KIND is bit 31 and DUR bits [30:0]; every word is a legal entry; and the words the rule lists. -/
def Obligations.PulseWordRoundTrip : Prop :=
  (∀ w : Word, (PulseEntry.ofWord w).toWord = w ∧ (PulseEntry.ofWord w).dur < 2 ^ 31) ∧
  (∀ e : PulseEntry, e.dur < 2 ^ 31 → PulseEntry.ofWord e.toWord = e) ∧
  (∀ e : PulseEntry, e.dur < 2 ^ 31 →
    e.toWord.toNat = (if e.kind = .mark then 2 ^ 31 else 0) + e.dur) ∧
  PulseEntry.toWord { kind := .mark, dur := 8500 } = 0x80002134#32 ∧
  PulseEntry.toWord { kind := .space, dur := 4400 } = 0x00001130#32 ∧
  PulseEntry.toWord { kind := .mark, dur := 550 } = 0x80000226#32 ∧
  PulseEntry.toWord { kind := .space, dur := 1550 } = 0x0000060E#32 ∧
  PulseEntry.toWord { kind := .space, dur := 550 } = 0x00000226#32

/-- R86: SET, MARK and SPACE are one write each, of SETTINGS or of PULSE[i], whose word carries their operands to the
fields COMPILE and DECODE read. -/
def Obligations.NotationWordsCarryTheirOperands : Prop :=
  (∀ (base : Nat) (p : Bool) (m : HvacMode) (f : FanSpeed),
    HostLine.accesses base (.set p m f) = [.write (base + 0x008) (bytesOfWord (settingsWord p m f))] ∧
    powerField (settingsWord p m f) = p ∧
    modeBit (modeField (settingsWord p m f)) =
      (match m with | .cool => 0x10#8 | .dry => 0x40#8 | .fanOnly => 0x80#8) ∧
    fanBit (fanField (settingsWord p m f)) =
      (match f with | .low => 0x02#8 | .medium => 0x04#8 | .high => 0x08#8)) ∧
  ∀ (base : Nat) (i : Fin 68) (d : Word),
    HostLine.accesses base (.mark i d) = [.write (base + (0x100 + 4 * i.val)) (bytesOfWord (0x80000000#32 ||| d))] ∧
    HostLine.accesses base (.space i d) = [.write (base + (0x100 + 4 * i.val)) (bytesOfWord d)] ∧
    (d.toNat < 2 ^ 31 →
      PulseEntry.ofWord (0x80000000#32 ||| d) = { kind := .mark, dur := d.toNat } ∧
      PulseEntry.ofWord d = { kind := .space, dur := d.toNat })
end

