-- ==== Sys2Proof/Laws/State.lean ====
section
/-! SUPPORT. What each field of the state is after each named update: one lemma per field per update, true by rfl. -/

namespace Sys2Proof.Machine

-- `fault(reason)` writes FAULT alone (R11, R55).
@[simp] theorem State.raise_status (s : State) (r : Fault) : (s.raise r).status = s.status := rfl
@[simp] theorem State.raise_settings (s : State) (r : Fault) : (s.raise r).settings = s.settings := rfl
@[simp] theorem State.raise_tempC (s : State) (r : Fault) : (s.raise r).tempC = s.tempC := rfl
@[simp] theorem State.raise_packet (s : State) (r : Fault) : (s.raise r).packet = s.packet := rfl
@[simp] theorem State.raise_pulseLen (s : State) (r : Fault) : (s.raise r).pulseLen = s.pulseLen := rfl
@[simp] theorem State.raise_pulse (s : State) (r : Fault) : (s.raise r).pulse = s.pulse := rfl
@[simp] theorem State.raise_txLog (s : State) (r : Fault) : (s.raise r).txLog = s.txLog := rfl
@[simp] theorem State.raise_fault (s : State) (r : Fault) : (s.raise r).fault = some r := rfl
@[simp] theorem State.raise_params (s : State) (r : Fault) : (s.raise r).params = s.params := rfl
@[simp] theorem State.raise_draws (s : State) (r : Fault) : (s.raise r).draws = s.draws := rfl
@[simp] theorem State.raise_pending (s : State) (r : Fault) : (s.raise r).pending = s.pending := rfl
@[simp] theorem State.raise_replies (s : State) (r : Fault) : (s.raise r).replies = s.replies := rfl

-- A result is written to STATUS alone (R23).
@[simp] theorem State.setResult_status (s : State) (r : CommandResult) : (s.setResult r).status = r.code := rfl
@[simp] theorem State.setResult_settings (s : State) (r : CommandResult) : (s.setResult r).settings = s.settings := rfl
@[simp] theorem State.setResult_tempC (s : State) (r : CommandResult) : (s.setResult r).tempC = s.tempC := rfl
@[simp] theorem State.setResult_packet (s : State) (r : CommandResult) : (s.setResult r).packet = s.packet := rfl
@[simp] theorem State.setResult_pulseLen (s : State) (r : CommandResult) : (s.setResult r).pulseLen = s.pulseLen := rfl
@[simp] theorem State.setResult_pulse (s : State) (r : CommandResult) : (s.setResult r).pulse = s.pulse := rfl
@[simp] theorem State.setResult_txLog (s : State) (r : CommandResult) : (s.setResult r).txLog = s.txLog := rfl
@[simp] theorem State.setResult_fault (s : State) (r : CommandResult) : (s.setResult r).fault = s.fault := rfl
@[simp] theorem State.setResult_params (s : State) (r : CommandResult) : (s.setResult r).params = s.params := rfl
@[simp] theorem State.setResult_draws (s : State) (r : CommandResult) : (s.setResult r).draws = s.draws := rfl
@[simp] theorem State.setResult_pending (s : State) (r : CommandResult) : (s.setResult r).pending = s.pending := rfl
@[simp] theorem State.setResult_replies (s : State) (r : CommandResult) : (s.setResult r).replies = s.replies := rfl

-- SETTINGS keeps bits [4:0] of what is written (R57).
@[simp] theorem State.writeSettings_status (s : State) (w : Word) : (s.writeSettings w).status = s.status := rfl
@[simp] theorem State.writeSettings_settings (s : State) (w : Word) : (s.writeSettings w).settings = (w.extractLsb' 0 5).setWidth 32 := rfl
@[simp] theorem State.writeSettings_tempC (s : State) (w : Word) : (s.writeSettings w).tempC = s.tempC := rfl
@[simp] theorem State.writeSettings_packet (s : State) (w : Word) : (s.writeSettings w).packet = s.packet := rfl
@[simp] theorem State.writeSettings_pulseLen (s : State) (w : Word) : (s.writeSettings w).pulseLen = s.pulseLen := rfl
@[simp] theorem State.writeSettings_pulse (s : State) (w : Word) : (s.writeSettings w).pulse = s.pulse := rfl
@[simp] theorem State.writeSettings_txLog (s : State) (w : Word) : (s.writeSettings w).txLog = s.txLog := rfl
@[simp] theorem State.writeSettings_fault (s : State) (w : Word) : (s.writeSettings w).fault = s.fault := rfl
@[simp] theorem State.writeSettings_params (s : State) (w : Word) : (s.writeSettings w).params = s.params := rfl
@[simp] theorem State.writeSettings_draws (s : State) (w : Word) : (s.writeSettings w).draws = s.draws := rfl
@[simp] theorem State.writeSettings_pending (s : State) (w : Word) : (s.writeSettings w).pending = s.pending := rfl
@[simp] theorem State.writeSettings_replies (s : State) (w : Word) : (s.writeSettings w).replies = s.replies := rfl

-- TEMP_C is stored whole and its flag set (R57).
@[simp] theorem State.writeTempC_status (s : State) (w : Word) : (s.writeTempC w).status = s.status := rfl
@[simp] theorem State.writeTempC_settings (s : State) (w : Word) : (s.writeTempC w).settings = s.settings := rfl
@[simp] theorem State.writeTempC_tempC (s : State) (w : Word) : (s.writeTempC w).tempC = Cell.holding w := rfl
@[simp] theorem State.writeTempC_packet (s : State) (w : Word) : (s.writeTempC w).packet = s.packet := rfl
@[simp] theorem State.writeTempC_pulseLen (s : State) (w : Word) : (s.writeTempC w).pulseLen = s.pulseLen := rfl
@[simp] theorem State.writeTempC_pulse (s : State) (w : Word) : (s.writeTempC w).pulse = s.pulse := rfl
@[simp] theorem State.writeTempC_txLog (s : State) (w : Word) : (s.writeTempC w).txLog = s.txLog := rfl
@[simp] theorem State.writeTempC_fault (s : State) (w : Word) : (s.writeTempC w).fault = s.fault := rfl
@[simp] theorem State.writeTempC_params (s : State) (w : Word) : (s.writeTempC w).params = s.params := rfl
@[simp] theorem State.writeTempC_draws (s : State) (w : Word) : (s.writeTempC w).draws = s.draws := rfl
@[simp] theorem State.writeTempC_pending (s : State) (w : Word) : (s.writeTempC w).pending = s.pending := rfl
@[simp] theorem State.writeTempC_replies (s : State) (w : Word) : (s.writeTempC w).replies = s.replies := rfl

-- PACKET is stored whole and its flag set (R57).
@[simp] theorem State.writePacket_status (s : State) (w : Word) : (s.writePacket w).status = s.status := rfl
@[simp] theorem State.writePacket_settings (s : State) (w : Word) : (s.writePacket w).settings = s.settings := rfl
@[simp] theorem State.writePacket_tempC (s : State) (w : Word) : (s.writePacket w).tempC = s.tempC := rfl
@[simp] theorem State.writePacket_packet (s : State) (w : Word) : (s.writePacket w).packet = Cell.holding w := rfl
@[simp] theorem State.writePacket_pulseLen (s : State) (w : Word) : (s.writePacket w).pulseLen = s.pulseLen := rfl
@[simp] theorem State.writePacket_pulse (s : State) (w : Word) : (s.writePacket w).pulse = s.pulse := rfl
@[simp] theorem State.writePacket_txLog (s : State) (w : Word) : (s.writePacket w).txLog = s.txLog := rfl
@[simp] theorem State.writePacket_fault (s : State) (w : Word) : (s.writePacket w).fault = s.fault := rfl
@[simp] theorem State.writePacket_params (s : State) (w : Word) : (s.writePacket w).params = s.params := rfl
@[simp] theorem State.writePacket_draws (s : State) (w : Word) : (s.writePacket w).draws = s.draws := rfl
@[simp] theorem State.writePacket_pending (s : State) (w : Word) : (s.writePacket w).pending = s.pending := rfl
@[simp] theorem State.writePacket_replies (s : State) (w : Word) : (s.writePacket w).replies = s.replies := rfl

-- PULSE_LEN is stored whole (R57).
@[simp] theorem State.writePulseLen_status (s : State) (w : Word) : (s.writePulseLen w).status = s.status := rfl
@[simp] theorem State.writePulseLen_settings (s : State) (w : Word) : (s.writePulseLen w).settings = s.settings := rfl
@[simp] theorem State.writePulseLen_tempC (s : State) (w : Word) : (s.writePulseLen w).tempC = s.tempC := rfl
@[simp] theorem State.writePulseLen_packet (s : State) (w : Word) : (s.writePulseLen w).packet = s.packet := rfl
@[simp] theorem State.writePulseLen_pulseLen (s : State) (w : Word) : (s.writePulseLen w).pulseLen = w := rfl
@[simp] theorem State.writePulseLen_pulse (s : State) (w : Word) : (s.writePulseLen w).pulse = s.pulse := rfl
@[simp] theorem State.writePulseLen_txLog (s : State) (w : Word) : (s.writePulseLen w).txLog = s.txLog := rfl
@[simp] theorem State.writePulseLen_fault (s : State) (w : Word) : (s.writePulseLen w).fault = s.fault := rfl
@[simp] theorem State.writePulseLen_params (s : State) (w : Word) : (s.writePulseLen w).params = s.params := rfl
@[simp] theorem State.writePulseLen_draws (s : State) (w : Word) : (s.writePulseLen w).draws = s.draws := rfl
@[simp] theorem State.writePulseLen_pending (s : State) (w : Word) : (s.writePulseLen w).pending = s.pending := rfl
@[simp] theorem State.writePulseLen_replies (s : State) (w : Word) : (s.writePulseLen w).replies = s.replies := rfl

-- One PULSE entry is stored whole and its flag set (R57).
@[simp] theorem State.writePulse_status (s : State) (i : Fin 68) (w : Word) : (s.writePulse i w).status = s.status := rfl
@[simp] theorem State.writePulse_settings (s : State) (i : Fin 68) (w : Word) : (s.writePulse i w).settings = s.settings := rfl
@[simp] theorem State.writePulse_tempC (s : State) (i : Fin 68) (w : Word) : (s.writePulse i w).tempC = s.tempC := rfl
@[simp] theorem State.writePulse_packet (s : State) (i : Fin 68) (w : Word) : (s.writePulse i w).packet = s.packet := rfl
@[simp] theorem State.writePulse_pulseLen (s : State) (i : Fin 68) (w : Word) : (s.writePulse i w).pulseLen = s.pulseLen := rfl
@[simp] theorem State.writePulse_pulse (s : State) (i : Fin 68) (w : Word) : (s.writePulse i w).pulse = s.pulse.set i (Cell.holding w) := rfl
@[simp] theorem State.writePulse_txLog (s : State) (i : Fin 68) (w : Word) : (s.writePulse i w).txLog = s.txLog := rfl
@[simp] theorem State.writePulse_fault (s : State) (i : Fin 68) (w : Word) : (s.writePulse i w).fault = s.fault := rfl
@[simp] theorem State.writePulse_params (s : State) (i : Fin 68) (w : Word) : (s.writePulse i w).params = s.params := rfl
@[simp] theorem State.writePulse_draws (s : State) (i : Fin 68) (w : Word) : (s.writePulse i w).draws = s.draws := rfl
@[simp] theorem State.writePulse_pending (s : State) (i : Fin 68) (w : Word) : (s.writePulse i w).pending = s.pending := rfl
@[simp] theorem State.writePulse_replies (s : State) (i : Fin 68) (w : Word) : (s.writePulse i w).replies = s.replies := rfl

-- ENCODE overwrites every PULSE entry (R135).
@[simp] theorem State.writeTrain_status (s : State) (t : Fin 68 → Word) : (s.writeTrain t).status = s.status := rfl
@[simp] theorem State.writeTrain_settings (s : State) (t : Fin 68 → Word) : (s.writeTrain t).settings = s.settings := rfl
@[simp] theorem State.writeTrain_tempC (s : State) (t : Fin 68 → Word) : (s.writeTrain t).tempC = s.tempC := rfl
@[simp] theorem State.writeTrain_packet (s : State) (t : Fin 68 → Word) : (s.writeTrain t).packet = s.packet := rfl
@[simp] theorem State.writeTrain_pulseLen (s : State) (t : Fin 68 → Word) : (s.writeTrain t).pulseLen = s.pulseLen := rfl
@[simp] theorem State.writeTrain_pulse (s : State) (t : Fin 68 → Word) : (s.writeTrain t).pulse = s.pulse.mapFinIdx fun i _ h => Cell.holding (t ⟨i, h⟩) := rfl
@[simp] theorem State.writeTrain_txLog (s : State) (t : Fin 68 → Word) : (s.writeTrain t).txLog = s.txLog := rfl
@[simp] theorem State.writeTrain_fault (s : State) (t : Fin 68 → Word) : (s.writeTrain t).fault = s.fault := rfl
@[simp] theorem State.writeTrain_params (s : State) (t : Fin 68 → Word) : (s.writeTrain t).params = s.params := rfl
@[simp] theorem State.writeTrain_draws (s : State) (t : Fin 68 → Word) : (s.writeTrain t).draws = s.draws := rfl
@[simp] theorem State.writeTrain_pending (s : State) (t : Fin 68 → Word) : (s.writeTrain t).pending = s.pending := rfl
@[simp] theorem State.writeTrain_replies (s : State) (t : Fin 68 → Word) : (s.writeTrain t).replies = s.replies := rfl

-- An event goes to the end of TXLOG (R30).
@[simp] theorem State.emitTx_status (s : State) (e : TxEvent) : (s.emitTx e).status = s.status := rfl
@[simp] theorem State.emitTx_settings (s : State) (e : TxEvent) : (s.emitTx e).settings = s.settings := rfl
@[simp] theorem State.emitTx_tempC (s : State) (e : TxEvent) : (s.emitTx e).tempC = s.tempC := rfl
@[simp] theorem State.emitTx_packet (s : State) (e : TxEvent) : (s.emitTx e).packet = s.packet := rfl
@[simp] theorem State.emitTx_pulseLen (s : State) (e : TxEvent) : (s.emitTx e).pulseLen = s.pulseLen := rfl
@[simp] theorem State.emitTx_pulse (s : State) (e : TxEvent) : (s.emitTx e).pulse = s.pulse := rfl
@[simp] theorem State.emitTx_txLog (s : State) (e : TxEvent) : (s.emitTx e).txLog = s.txLog ++ [e] := rfl
@[simp] theorem State.emitTx_fault (s : State) (e : TxEvent) : (s.emitTx e).fault = s.fault := rfl
@[simp] theorem State.emitTx_params (s : State) (e : TxEvent) : (s.emitTx e).params = s.params := rfl
@[simp] theorem State.emitTx_draws (s : State) (e : TxEvent) : (s.emitTx e).draws = s.draws := rfl
@[simp] theorem State.emitTx_pending (s : State) (e : TxEvent) : (s.emitTx e).pending = s.pending := rfl
@[simp] theorem State.emitTx_replies (s : State) (e : TxEvent) : (s.emitTx e).replies = s.replies := rfl

-- Free values taken (R107).
@[simp] theorem State.useDraws_status (s : State) (n : Nat) : (s.useDraws n).status = s.status := rfl
@[simp] theorem State.useDraws_settings (s : State) (n : Nat) : (s.useDraws n).settings = s.settings := rfl
@[simp] theorem State.useDraws_tempC (s : State) (n : Nat) : (s.useDraws n).tempC = s.tempC := rfl
@[simp] theorem State.useDraws_packet (s : State) (n : Nat) : (s.useDraws n).packet = s.packet := rfl
@[simp] theorem State.useDraws_pulseLen (s : State) (n : Nat) : (s.useDraws n).pulseLen = s.pulseLen := rfl
@[simp] theorem State.useDraws_pulse (s : State) (n : Nat) : (s.useDraws n).pulse = s.pulse := rfl
@[simp] theorem State.useDraws_txLog (s : State) (n : Nat) : (s.useDraws n).txLog = s.txLog := rfl
@[simp] theorem State.useDraws_fault (s : State) (n : Nat) : (s.useDraws n).fault = s.fault := rfl
@[simp] theorem State.useDraws_params (s : State) (n : Nat) : (s.useDraws n).params = s.params := rfl
@[simp] theorem State.useDraws_draws (s : State) (n : Nat) : (s.useDraws n).draws = s.draws + n := rfl
@[simp] theorem State.useDraws_pending (s : State) (n : Nat) : (s.useDraws n).pending = s.pending := rfl
@[simp] theorem State.useDraws_replies (s : State) (n : Nat) : (s.useDraws n).replies = s.replies := rfl

-- A read returns a value to the host and changes no block state (R56).
@[simp] theorem State.reply_status (s : State) (b : List Byte) : (s.reply b).status = s.status := rfl
@[simp] theorem State.reply_settings (s : State) (b : List Byte) : (s.reply b).settings = s.settings := rfl
@[simp] theorem State.reply_tempC (s : State) (b : List Byte) : (s.reply b).tempC = s.tempC := rfl
@[simp] theorem State.reply_packet (s : State) (b : List Byte) : (s.reply b).packet = s.packet := rfl
@[simp] theorem State.reply_pulseLen (s : State) (b : List Byte) : (s.reply b).pulseLen = s.pulseLen := rfl
@[simp] theorem State.reply_pulse (s : State) (b : List Byte) : (s.reply b).pulse = s.pulse := rfl
@[simp] theorem State.reply_txLog (s : State) (b : List Byte) : (s.reply b).txLog = s.txLog := rfl
@[simp] theorem State.reply_fault (s : State) (b : List Byte) : (s.reply b).fault = s.fault := rfl
@[simp] theorem State.reply_params (s : State) (b : List Byte) : (s.reply b).params = s.params := rfl
@[simp] theorem State.reply_draws (s : State) (b : List Byte) : (s.reply b).draws = s.draws := rfl
@[simp] theorem State.reply_pending (s : State) (b : List Byte) : (s.reply b).pending = s.pending := rfl
@[simp] theorem State.reply_replies (s : State) (b : List Byte) : (s.reply b).replies = s.replies ++ [b] := rfl

-- The host's accesses still to be performed (R59).
@[simp] theorem State.setPending_status (s : State) (l : List HostAccess) : (s.setPending l).status = s.status := rfl
@[simp] theorem State.setPending_settings (s : State) (l : List HostAccess) : (s.setPending l).settings = s.settings := rfl
@[simp] theorem State.setPending_tempC (s : State) (l : List HostAccess) : (s.setPending l).tempC = s.tempC := rfl
@[simp] theorem State.setPending_packet (s : State) (l : List HostAccess) : (s.setPending l).packet = s.packet := rfl
@[simp] theorem State.setPending_pulseLen (s : State) (l : List HostAccess) : (s.setPending l).pulseLen = s.pulseLen := rfl
@[simp] theorem State.setPending_pulse (s : State) (l : List HostAccess) : (s.setPending l).pulse = s.pulse := rfl
@[simp] theorem State.setPending_txLog (s : State) (l : List HostAccess) : (s.setPending l).txLog = s.txLog := rfl
@[simp] theorem State.setPending_fault (s : State) (l : List HostAccess) : (s.setPending l).fault = s.fault := rfl
@[simp] theorem State.setPending_params (s : State) (l : List HostAccess) : (s.setPending l).params = s.params := rfl
@[simp] theorem State.setPending_draws (s : State) (l : List HostAccess) : (s.setPending l).draws = s.draws := rfl
@[simp] theorem State.setPending_pending (s : State) (l : List HostAccess) : (s.setPending l).pending = l := rfl
@[simp] theorem State.setPending_replies (s : State) (l : List HostAccess) : (s.setPending l).replies = s.replies := rfl

end Sys2Proof.Machine
end

