-- ==== Sys2Proof/Laws/Ops.lean ====
section
/-! SUPPORT. What reading and writing a cell can do (R40, R41). -/

namespace Sys2Proof.Machine

@[simp] theorem Cell.read_holding (w : Word) : (Cell.holding w).read = some w := rfl

@[simp] theorem Cell.read_unwritten : Cell.unwritten.read = none := rfl

@[simp] theorem Cell.holding_written (w : Word) : (Cell.holding w).written = true := rfl

@[simp] theorem Cell.holding_word (w : Word) : (Cell.holding w).word = w := rfl

/-- A read answers a word exactly where the flag is set, and then it is the cell's. -/
theorem Cell.read_eq_some {c : Cell} {w : Word} : c.read = some w ↔ c.written = true ∧ c.word = w := by
  unfold Cell.read
  split <;> simp_all

/-- A read answers nothing exactly where the flag is clear. -/
theorem Cell.read_eq_none {c : Cell} : c.read = none ↔ c.written = false := by
  unfold Cell.read
  split <;> simp_all

/-- A host write of PULSE[i] is read back at i. -/
theorem State.writePulse_self (s : State) (i : Fin 68) (w : Word) :
    (s.writePulse i w).pulse[i] = Cell.holding w := by
  simp

/-- A host write of PULSE[i] leaves every other entry as it was. -/
theorem State.writePulse_other (s : State) (i j : Fin 68) (w : Word) (h : i ≠ j) :
    (s.writePulse i w).pulse[j] = s.pulse[j] := by
  have : i.val ≠ j.val := fun e => h (Fin.ext e)
  simp [this]

/-- After ENCODE's write every entry holds its word of the train. -/
theorem State.writeTrain_get (s : State) (t : Fin 68 → Word) (i : Fin 68) :
    (s.writeTrain t).pulse[i] = Cell.holding (t i) := by
  simp

end Sys2Proof.Machine
end

