-- ==== Sys2Proof/Laws/Exec.lean ====
section
/-! SUPPORT. Everything the commands, a host access and a step can do, said once. -/

namespace Sys2Proof.Machine

/-- COMPILE either finds TEMP_C unwritten or writes PACKET, STATUS and the draw count. -/
theorem execCompile_cases (s : State) :
    (s.tempC.written = false ∧ execCompile s = .next (s.raise .uninitRead)) ∨
    (s.tempC.written = true ∧ execCompile s =
      .next (((s.useDraws (drawsOf (Temp.ofWord s.tempC.word))).writePacket
        (compilePacket s.settings s.tempC.word (Config.freeByte s.draws)).toWord).setResult .ok)) := by
  cases h : s.tempC.written <;> simp [execCompile, Cell.read, h]

/-- ENCODE either finds PACKET unwritten or writes PULSE, PULSE_LEN, TXLOG and STATUS. -/
theorem execEncode_cases (s : State) :
    (s.packet.written = false ∧ execEncode s = .next (s.raise .uninitRead)) ∨
    (s.packet.written = true ∧ execEncode s =
      .next ((((s.writeTrain (trainWord (encodeTrain (Packet.ofWord s.packet.word)))).writePulseLen
        (BitVec.ofNat 32 trainLen)).emitTx
          { carrierHz := carrierHz, train := encodeTrain (Packet.ofWord s.packet.word) }).setResult .ok)) := by
  cases h : s.packet.written <;> simp [execEncode, Cell.read, h]

/-- DECODE writes PACKET and STATUS, or STATUS alone, or meets an unwritten entry. -/
theorem execDecode_cases (s : State) :
    (∃ p, decodeWith s.params.tol (pulseReader s.pulse) s.pulseLen.toNat = .ok p ∧
      execDecode s = .next ((s.writePacket p.toWord).setResult .ok)) ∨
    (∃ e, decodeWith s.params.tol (pulseReader s.pulse) s.pulseLen.toNat = .error (.err e) ∧
      execDecode s = .next (s.setResult (.decodeError e))) ∨
    (decodeWith s.params.tol (pulseReader s.pulse) s.pulseLen.toNat = .error .uninit ∧
      execDecode s = .next (s.raise .uninitRead)) := by
  unfold execDecode
  split
  · exact .inl ⟨_, ‹_›, rfl⟩
  · exact .inr (.inl ⟨_, ‹_›, rfl⟩)
  · exact .inr (.inr ⟨‹_›, rfl⟩)

/-- A step answers a next state only with FAULT clear: idle, or one access performed. -/
theorem step_cases {s t : State} (h : step s = .next t) :
    s.fault = none ∧
      ((s.pending = [] ∧ t = s) ∨
        ∃ a rest, s.pending = a :: rest ∧ performAccess a (s.setPending rest) = .next t) := by
  unfold step at h
  split at h
  · cases h
  · refine ⟨‹_›, ?_⟩
    split at h
    · cases h
      exact .inl ⟨‹_›, rfl⟩
    · exact .inr ⟨_, _, ‹_›, h⟩

/-- A host access reaches no register, or reads one, or writes one. -/
theorem performAccess_cases (a : HostAccess) (s : State) :
    (a.target s.params.base = none ∧ performAccess a s = .next (s.raise .badAccess)) ∨
    (∃ r addr size, a = .read addr size ∧ a.target s.params.base = some r ∧
      performAccess a s = .next (hostRead r s)) ∨
    (∃ r addr bytes, a = .write addr bytes ∧ a.target s.params.base = some r ∧
      performAccess a s = hostWrite r (wordOfBytes bytes) s) := by
  cases h : a.target s.params.base with
  | none => exact .inl ⟨rfl, by simp [performAccess, h]⟩
  | some r =>
    cases a with
    | read addr size => exact .inr (.inl ⟨r, addr, size, rfl, rfl, by simp [performAccess, h]⟩)
    | write addr bytes => exact .inr (.inr ⟨r, addr, bytes, rfl, rfl, by simp [performAccess, h]⟩)

/-- A host read hands a word to the host or faults; the block's registers stay as they are. -/
theorem hostRead_cases (r : Reg) (s : State) :
    (∃ w, s.readReg r = some w ∧ hostRead r s = s.reply (bytesOfWord w)) ∨
    (s.readReg r = none ∧ hostRead r s = s.raise .uninitRead) := by
  unfold hostRead
  split
  · exact .inl ⟨_, ‹_›, rfl⟩
  · exact .inr ⟨‹_›, rfl⟩

/-- A word written to CMD runs the instruction it encodes, or is illegal. -/
theorem command_cases (w : Word) (s : State) :
    (∃ i, w = encode i ∧ decodeWord w = .ok i ∧ command w s = exec i s) ∨
    ((∀ i, w ≠ encode i) ∧ command w s = .next (illegalCommand s)) := by
  by_cases h1 : w = 0x00000001#32
  · exact .inl ⟨.compile, h1, by simp [h1, decodeWord], by simp [h1, command, decodeWord]⟩
  by_cases h2 : w = 0x00000002#32
  · exact .inl ⟨.encode, h2, by simp [h2, decodeWord], by simp [h2, command, decodeWord]⟩
  by_cases h3 : w = 0x00000003#32
  · exact .inl ⟨.decode, h3, by simp [h3, decodeWord], by simp [h3, command, decodeWord]⟩
  refine .inr ⟨fun i => ?_, by simp [command, decodeWord, h1, h2, h3]⟩
  cases i <;> assumption

end Sys2Proof.Machine
end

