-- ==== Sys2Proof/Laws/Frac.lean ====
section
/-! SUPPORT. The exact arithmetic of Machine/Frac.lean is the arithmetic of ℚ. -/

namespace Sys2Proof.Machine

/-- Comparing by cross products is comparing in ℚ. -/
theorem Frac.lt_iff_toRat {a b : Frac} (ha : 0 < a.den) (hb : 0 < b.den) : a.lt b = true ↔ a.toRat < b.toRat := by
  have ha' : (0 : ℚ) < a.den := by exact_mod_cast ha
  have hb' : (0 : ℚ) < b.den := by exact_mod_cast hb
  rw [Frac.lt, decide_eq_true_iff, Frac.toRat, Frac.toRat, div_lt_div_iff₀ ha' hb']
  exact_mod_cast Iff.rfl

/-- The product is the product in ℚ. -/
theorem Frac.toRat_mul (a b : Frac) : (a.mul b).toRat = a.toRat * b.toRat := by
  simp [Frac.mul, Frac.toRat, div_mul_div_comm]

/-- The sum is the sum in ℚ. -/
theorem Frac.toRat_add {a b : Frac} (ha : 0 < a.den) (hb : 0 < b.den) : (a.add b).toRat = a.toRat + b.toRat := by
  have ha' : (a.den : ℚ) ≠ 0 := by exact_mod_cast ha.ne'
  have hb' : (b.den : ℚ) ≠ 0 := by exact_mod_cast hb.ne'
  simp only [Frac.add, Frac.toRat]
  push_cast
  rw [div_add_div _ _ ha' hb']
  ring

/-- A product of positive denominators is positive. -/
theorem Frac.mul_den_pos {a b : Frac} (ha : 0 < a.den) (hb : 0 < b.den) : 0 < (a.mul b).den := Nat.mul_pos ha hb

/-- A sum's denominator is positive. -/
theorem Frac.add_den_pos {a b : Frac} (ha : 0 < a.den) (hb : 0 < b.den) : 0 < (a.add b).den := Nat.mul_pos ha hb

end Sys2Proof.Machine
end

