-- ==== Sys2Proof/Laws/Operands.lean ====
section
/-! SUPPORT. What the packet word and the fields of a binary32 pattern are, bit by bit and as numbers. -/

namespace Sys2Proof.Machine

/-- A packet has `PKT_LEN` bytes (R8, R78). -/
@[simp] theorem Packet.bytes_length (p : Packet) : p.bytes.length = pktLen := rfl

/-- Bit k of a packet word is bit k mod 8 of byte k div 8 (R79). -/
theorem Packet.toWord_getLsbD (p : Packet) {k : Nat} (h : k < 32) :
    p.toWord.getLsbD k =
      if k < 8 then p.b0.getLsbD k
      else if k < 16 then p.b1.getLsbD (k - 8)
      else if k < 24 then p.b2.getLsbD (k - 16)
      else p.b3.getLsbD (k - 24) := by
  simp only [Packet.toWord]
  interval_cases k <;> simp

/-- `w[30:23]` as a number (R77). -/
theorem binary32_exponent_toNat (w : Word) : (w.extractLsb' 23 8).toNat = w.toNat / 2 ^ 23 % 256 := by
  simp [BitVec.extractLsb'_toNat, Nat.shiftRight_eq_div_pow]

/-- `w[22:0]` as a number (R77). -/
theorem binary32_fraction_toNat (w : Word) : (w.extractLsb' 0 23).toNat = w.toNat % 2 ^ 23 := by
  simp [BitVec.extractLsb'_toNat]

/-- `w[31]` is set exactly in the upper half of the patterns (R77). -/
theorem binary32_sign (w : Word) : w.getLsbD 31 = decide (w.toNat / 2 ^ 31 = 1) := by
  have := w.isLt
  simp only [BitVec.getLsbD, Nat.testBit_eq_decide_div_mod_eq, decide_eq_decide]
  omega

/-- Every finite temperature has a positive denominator, so the arithmetic of R105 and R106 is that of ℚ. -/
theorem Temp.ofWord_den_pos {w : Word} {q : Frac} (h : Temp.ofWord w = .finite q) : 0 < q.den := by
  unfold Temp.ofWord at h
  simp only at h
  split_ifs at h <;> simp only [Temp.finite.injEq] at h <;> subst h <;> positivity

end Sys2Proof.Machine
end

