-- ==== Sys2Proof/Laws/PerInstr.lean ====
section
/-! SUPPORT. Statements made per instruction: the command words (R70, R71). -/

namespace Sys2Proof.Laws.CommandWord

/-- A well-formed instruction's bytes decode to it whatever follows them, and no other word does: the decoder
"compares all 32 bits" (R70). -/
def Statement (i : Instr) : Prop :=
  i.wf = true ∧ (∀ rest, decodeBytes (encodeBytes i ++ rest) = .ok (i, rest)) ∧
    ∀ w, decodeWord w = .ok i → w = encode i

theorem compile : Statement .compile := by
  refine ⟨rfl, fun _ => rfl, fun w h => ?_⟩
  unfold decodeWord at h
  split_ifs at h <;> first | assumption | cases h

theorem encode : Statement .encode := by
  refine ⟨rfl, fun _ => rfl, fun w h => ?_⟩
  unfold decodeWord at h
  split_ifs at h <;> first | assumption | cases h

theorem decode : Statement .decode := by
  refine ⟨rfl, fun _ => rfl, fun w h => ?_⟩
  unfold decodeWord at h
  split_ifs at h <;> first | assumption | cases h

end Sys2Proof.Laws.CommandWord
end

