-- ==== Sys2Proof/Laws/Step.lean ====
section
/-! SUPPORT. A register's offset and a write's bytes, and everything a step can do: the lemma the invariants are
derived from. -/

namespace Sys2Proof.Machine

/-- The register the map finds has the offset it was found at (R51). -/
theorem Reg.offset_of_ofOffset {off : Nat} {r : Reg} (h : Reg.ofOffset off = some r) : r.offset = off := by
  unfold Reg.ofOffset at h
  split at h <;> try (cases h; rfl)
  split at h
  · cases h
    simp only [Reg.offset]
    omega
  · cases h

/-- Every register lies in the window, word-aligned (R51, R53). -/
theorem Reg.offset_lt_and_aligned (r : Reg) : r.offset < 1024 ∧ r.offset % 4 = 0 := by
  cases r with
  | const c => cases c <;> simp [Reg.offset, ConstReg.offset]
  | pulse i =>
    have := i.isLt
    simp [Reg.offset]
    omega
  | _ => simp [Reg.offset]

/-- An access that reaches a register is 4 bytes wide and at that register's address (R50 to R53). -/
theorem HostAccess.size_and_addr_of_target {base : Nat} {a : HostAccess} {r : Reg} (h : a.target base = some r) :
    a.size = 4 ∧ a.addr = base + r.offset := by
  unfold HostAccess.target at h
  split at h
  · rename_i hk
    simp only [HostAccess.formOk, Bool.and_eq_true, decide_eq_true_eq] at hk
    have := Reg.offset_of_ofOffset h
    exact ⟨hk.1.2, by omega⟩
  · cases h

/-- Four byte lanes are those of the word they make (R54). -/
theorem bytesOfWord_wordOfBytes {bytes : List Byte} (h : bytes.length = 4) :
    bytesOfWord (wordOfBytes bytes) = bytes := by
  match bytes, h with
  | [a, b, c, d], _ =>
    have hb : ∀ k, k < 32 → (wordOfBytes [a, b, c, d]).getLsbD k =
        if k < 8 then a.getLsbD k else if k < 16 then b.getLsbD (k - 8)
        else if k < 24 then c.getLsbD (k - 16) else d.getLsbD (k - 24) := by
      intro k hk
      simp only [wordOfBytes]
      interval_cases k <;> simp
    have hl : ∀ k i, k < 4 → i < 8 → (lane (wordOfBytes [a, b, c, d]) k).getLsbD i =
        (wordOfBytes [a, b, c, d]).getLsbD (8 * k + i) := by
      intro k i _ hi
      simp [lane, hi]
    simp only [bytesOfWord, List.cons.injEq, and_true]
    refine ⟨?_, ?_, ?_, ?_⟩ <;> apply BitVec.eq_of_getLsbD_eq <;> intro i hi <;>
      rw [hl _ _ (by omega) hi, hb _ (by omega)]
    · simp [hi]
    · simp [show 8 + i < 16 by omega]
    · simp [show 16 + i < 24 by omega, show ¬16 + i < 8 by omega]
    · simp [show ¬24 + i < 16 by omega, show ¬24 + i < 8 by omega]

/-- A command keeps FAULT or is the state with `UninitRead` set and nothing else changed (R41). -/
theorem exec_fault {i : Instr} {s t : State} (h : exec i s = .next t) :
    t.fault = s.fault ∨ t = s.raise .uninitRead := by
  cases i
  · rcases execCompile_cases s with ⟨_, h'⟩ | ⟨_, h'⟩ <;> (simp only [exec] at h; rw [h'] at h; cases h) <;> simp
  · rcases execEncode_cases s with ⟨_, h'⟩ | ⟨_, h'⟩ <;> (simp only [exec] at h; rw [h'] at h; cases h) <;> simp
  · rcases execDecode_cases s with ⟨_, _, h'⟩ | ⟨_, _, h'⟩ | ⟨_, h'⟩ <;>
      (simp only [exec] at h; rw [h'] at h; cases h) <;> simp

/-- Everything a step that answers a next state can be: idle; a fault; a read; a command; an illegal word; a write of
another register. -/
theorem step_forms {s t : State} (h : step s = .next t) :
    t = s ∨
    (∃ rest r, t = (s.setPending rest).raise r) ∨
    (∃ rest b, t = (s.setPending rest).reply b) ∨
    (∃ rest i, s.Next (.write (s.params.base + 0x000) (encodeBytes i)) rest ∧
      exec i (s.setPending rest) = .next t) ∨
    (∃ rest bytes, s.Next (.write (s.params.base + 0x000) bytes) rest ∧ t = illegalCommand (s.setPending rest)) ∨
    (∃ rest bytes r, r ≠ .cmd ∧ s.Next (.write (s.params.base + r.offset) bytes) rest ∧
      hostWrite r (wordOfBytes bytes) (s.setPending rest) = .next t) := by
  obtain ⟨hf, ⟨_, rfl⟩ | ⟨a, rest, hp, hpa⟩⟩ := step_cases h
  · exact .inl rfl
  rcases performAccess_cases a (s.setPending rest) with ⟨_, h'⟩ | ⟨r, _, _, _, _, h'⟩ | ⟨r, addr, bs, rfl, ht, h'⟩ <;>
    rw [h'] at hpa
  · cases hpa
    exact .inr (.inl ⟨rest, _, rfl⟩)
  · cases hpa
    rcases hostRead_cases r (s.setPending rest) with ⟨_, _, h''⟩ | ⟨_, h''⟩ <;> rw [h'']
    · exact .inr (.inr (.inl ⟨_, _, rfl⟩))
    · exact .inr (.inl ⟨_, _, rfl⟩)
  · obtain ⟨hl, ha⟩ := HostAccess.size_and_addr_of_target ht
    simp only [HostAccess.size, HostAccess.addr, State.setPending_params] at hl ha
    subst ha
    by_cases hr : r = .cmd
    · subst hr
      simp only [hostWrite] at hpa
      rcases command_cases (wordOfBytes bs) (s.setPending rest) with ⟨i, hi, _, h''⟩ | ⟨_, h''⟩ <;> rw [h''] at hpa
      · have hb : bs = encodeBytes i := by rw [encodeBytes, ← hi, bytesOfWord_wordOfBytes hl]
        subst hb
        exact .inr (.inr (.inr (.inl ⟨rest, i, ⟨hf, hp⟩, hpa⟩)))
      · cases hpa
        exact .inr (.inr (.inr (.inr (.inl ⟨rest, bs, ⟨hf, hp⟩, rfl⟩))))
    · exact .inr (.inr (.inr (.inr (.inr ⟨rest, bs, r, hr, ⟨hf, hp⟩, hpa⟩))))

/-- `|d - 550| < |d - 1550|` is `d < 1050` (R154). -/
theorem nearerShort_iff (d : Nat) : NearerShort d ↔ d < 1050 := by
  unfold NearerShort
  rcases abs_cases ((d : ℤ) - 550) with h | h <;> rcases abs_cases ((d : ℤ) - 1550) with h' | h' <;> omega

/-- `|d - 550| > |d - 1550|` is `1050 < d` (R154). -/
theorem nearerLong_iff (d : Nat) : NearerLong d ↔ 1050 < d := by
  unfold NearerLong
  rcases abs_cases ((d : ℤ) - 550) with h | h <;> rcases abs_cases ((d : ℤ) - 1550) with h' | h' <;> omega

end Sys2Proof.Machine
end

