-- ==== Sys2Proof/Tests/Slice0.lean ====
section
/-! SUPPORT. Tests against the spec's vectors (95_test_vectors.md, its row named beside each) and its worked examples,
and, for every statement with hypotheses, a state and operands that meet them all together (`test_witness_…`). -/

namespace Sys2Proof.Tests

open Sys2Proof Sys2Proof.Machine

-- Builders

/-- The state an outcome goes on from; reset for a stop. -/
def after : Host.Outcome State Fault Refusal → State
  | .next s => s
  | .fault _ => State.reset
  | .refused _ => State.reset

/-- The outcome is a next state. -/
def goesOn : Host.Outcome State Fault Refusal → Bool
  | .next _ => true
  | .fault _ => false
  | .refused _ => false

/-- The evaluation a witness's next state rests on. -/
theorem next_after {o : Host.Outcome State Fault Refusal} (h : goesOn o = true) : o = .next (after o) := by
  cases o
  · rfl
  · cases h
  · cases h

/-- One step with `a` as the host's next access. -/
def stepOn (a : HostAccess) (s : State) : Host.Outcome State Fault Refusal := step { s with pending := [a] }

/-- A 32-bit write at an offset of a window at bus address 0. -/
def wr (off : Nat) (w : Word) : HostAccess := .write off (bytesOfWord w)

/-- The state that COMPILE is tested on: SETTINGS and TEMP_C written. -/
def set (settings temp : Word) : State := (State.reset.writeSettings settings).writeTempC temp

/-- What COMPILE leaves in PACKET. -/
def compiled (settings temp : Word) : Word := (after (exec .compile (set settings temp))).packet.word

/-- The state after ENCODE of a packet word. -/
def encoded (w : Word) : State := after (exec .encode (State.reset.writePacket w))

/-- The V-E1 state, PACKET then set to 0, as V-D1 starts. -/
def captured : State := (encoded 0x4BA81848#32).writePacket 0#32

/-- DECODE of the captured train at tolerance `tol`, with entries changed and PULSE_LEN = `len`: STATUS and PACKET. -/
def decoded (tol : ℚ) (len : Word) (changes : List (Fin 68 × Word)) : Word × Word :=
  let s := changes.foldl (fun s c => s.writePulse c.1 c.2) captured
  let t := after (exec .decode { s with pulseLen := len, params := { s.params with tol := tol } })
  (t.status, t.packet.word)

/-- A rational written with its numerator and denominator in the open. -/
def quarter : ℚ := Config.defaultTol

-- Well-formedness: an ill-formed term for each check.

theorem test_wf_instructions : Instr.wf .compile = true ∧ Instr.wf .encode = true ∧ Instr.wf .decode = true := by
  decide

/-- R10: 0 and 99/100 are tolerances, 1 and -1/4 are none. -/
theorem test_wf_tol : Config.tolOk 0 = true ∧ Config.tolOk (99 / 100) = true ∧ Config.tolOk 1 = false ∧
    Config.tolOk (-1 / 4) = false := by decide +kernel

/-- R9: 1024 is a base, 512 is none. -/
theorem test_wf_base : Config.baseOk 1024 = true ∧ Config.baseOk 512 = false := by decide

/-- R9, R10: the parameters are refused for either of the two. -/
theorem test_wf_params : Config.Params.wf { tol := Config.defaultTol, base := 1024 } = true ∧
    Config.Params.wf { tol := 1, base := 1024 } = false ∧
    Config.Params.wf { tol := Config.defaultTol, base := 4 } = false := by decide

/-- R50, R52, R53: a wrong size, a misaligned offset, an address below and one above the window are refused. -/
theorem test_wf_access : HostAccess.formOk 1024 (.read 1024 4) = true ∧ HostAccess.formOk 1024 (.read 1024 2) = false ∧
    HostAccess.formOk 1024 (.read 1026 4) = false ∧ HostAccess.formOk 1024 (.read 1020 4) = false ∧
    HostAccess.formOk 1024 (.write 2048 [0#8, 0#8, 0#8, 0#8]) = false := by decide

-- Decoding: the words of spec/opcode_table.json, bit by bit.

theorem test_decode_compile : decodeWord 0b00000000000000000000000000000001#32 = .ok .compile := by decide
theorem test_decode_encode : decodeWord 0b00000000000000000000000000000010#32 = .ok .encode := by decide
theorem test_decode_decode : decodeWord 0b00000000000000000000000000000011#32 = .ok .decode := by decide

/-- V-I.1 to V-I.7. -/
theorem test_decode_illegal : ([0x00000000#32, 0x00000004#32, 0x00000007#32, 0xFFFFFFFF#32, 0x80000001#32,
    0x00000101#32, 0x10000002#32].all fun w => decide (decodeWord w = .error (.illegalWord w))) = true := by
  decide +kernel

/-- R54, R70: the command word's bytes, lane 0 first, and a command cut short. -/
theorem test_decode_bytes : decodeBytes [0x02#8, 0#8, 0#8, 0#8, 0xAA#8] = .ok (.encode, [0xAA#8]) ∧
    decodeBytes [0#8, 0#8, 0#8, 0x02#8] = .error (.illegalWord 0x02000000#32) ∧
    decodeBytes [0x01#8, 0#8, 0#8] = .error .tooShort := by decide

theorem test_decode_table : decodeTableWord 32 1 = some .compile ∧ decodeTableWord 32 2 = some .encode ∧
    decodeTableWord 32 3 = some .decode ∧ decodeTableWord 32 4 = none := by decide

-- COMPILE

/-- V-C1: 24.0 degrees with every mode and fan value, the default arms included, power on and off. -/
theorem test_compile_settings :
    ([0x00#32, 0x01#32, 0x03#32, 0x05#32, 0x07#32, 0x0A#32, 0x0D#32, 0x10#32, 0x13#32, 0x14#32, 0x1D#32,
      0x1F#32].map fun s => compiled s 0x41C00000#32) =
    [0x4B321248#32, 0x4BA81248#32, 0x4BA84248#32, 0x4BA88248#32, 0x4BA81248#32, 0x4B324448#32, 0x4BA88448#32,
      0x4B321848#32, 0x4BA84848#32, 0x4B328848#32, 0x4BA88248#32, 0x4BA81248#32] := by decide

/-- V-C2: infinities, a subnormal, the clamp, both sides of a bound and the exact halves. -/
theorem test_compile_temperatures :
    ([0xFF800000#32, 0x80000000#32, 0x00000001#32, 0x41200000#32, 0x41878E37#32, 0x41878F5C#32, 0x418BFFFF#32,
      0x418C0000#32, 0x41B3FFFF#32, 0x41B40000#32, 0x41DC0000#32, 0x41EDC28F#32, 0x41EDC745#32, 0x7F7FFFFF#32,
      0x7F800000#32].map fun t => compiled 0x01#32 t) =
    [0x3EA81248#32, 0x3EA81248#32, 0x3EA81248#32, 0x3EA81248#32, 0x3EA81248#32, 0x3FA81248#32, 0x3FA81248#32,
      0x40A81248#32, 0x48A81248#32, 0x49A81248#32, 0x52A81248#32, 0x55A81248#32, 0x56A81248#32, 0x56A81248#32,
      0x56A81248#32] := by decide

/-- V-C2, the NaN rows: bytes 0 to 2 as ever, byte 3 the drawn one, STATUS = OK. -/
theorem test_compile_nan :
    compiled 0x01#32 0x7FC00000#32 =
      Packet.toWord { b0 := 0x48#8, b1 := 0x12#8, b2 := 0xA8#8, b3 := Config.freeByte 0 } ∧
    (after (exec .compile (set 0x01#32 0xFFFFFFFF#32))).status = 0#32 := ⟨rfl, rfl⟩

-- ENCODE

/-- The 68 words of V-E1. -/
def vE1 : List Word :=
  [0x80002134#32, 0x00001130#32, 0x80000226#32, 0x0000060E#32, 0x80000226#32, 0x0000060E#32, 0x80000226#32, 0x0000060E#32,
   0x80000226#32, 0x00000226#32, 0x80000226#32, 0x0000060E#32, 0x80000226#32, 0x0000060E#32, 0x80000226#32, 0x00000226#32,
   0x80000226#32, 0x0000060E#32, 0x80000226#32, 0x0000060E#32, 0x80000226#32, 0x0000060E#32, 0x80000226#32, 0x0000060E#32] ++
  [0x80000226#32, 0x00000226#32, 0x80000226#32, 0x00000226#32, 0x80000226#32, 0x0000060E#32, 0x80000226#32, 0x0000060E#32,
   0x80000226#32, 0x0000060E#32, 0x80000226#32, 0x0000060E#32, 0x80000226#32, 0x0000060E#32, 0x80000226#32, 0x0000060E#32,
   0x80000226#32, 0x00000226#32, 0x80000226#32, 0x0000060E#32, 0x80000226#32, 0x00000226#32, 0x80000226#32, 0x0000060E#32] ++
  [0x80000226#32, 0x00000226#32, 0x80000226#32, 0x00000226#32, 0x80000226#32, 0x00000226#32, 0x80000226#32, 0x0000060E#32,
   0x80000226#32, 0x00000226#32, 0x80000226#32, 0x0000060E#32, 0x80000226#32, 0x0000060E#32, 0x80000226#32, 0x00000226#32,
   0x80000226#32, 0x0000060E#32, 0x80000226#32, 0x00001130#32]

/-- V-E1: every PULSE word, PULSE_LEN, STATUS and the total duration. -/
theorem test_encode_every_entry : (encoded 0x4BA81848#32).pulse.toList.map Cell.word = vE1 ∧
    (encoded 0x4BA81848#32).pulseLen = 0x44#32 ∧ (encoded 0x4BA81848#32).status = 0#32 ∧
    ((encoded 0x4BA81848#32).txLog.map fun e => (e.carrierHz, trainUs e.train)) = [(38000, 74050)] := by decide

/-- V-E2: the spaces of cells 0, 8, 16, 24 and 31, and the total. -/
theorem test_encode_summary :
    ([0x00000000#32, 0xFFFFFFFF#32, 0x4BA81048#32, 0x80000001#32, 0x00000100#32].map fun w =>
      ([3, 19, 35, 51, 65].map fun n => ((encoded w).pulse.toList.map Cell.word)[n]?,
        trainUs (encodeTrain (Packet.ofWord w)))) =
    [([some 0x60E#32, some 0x60E#32, some 0x60E#32, some 0x60E#32, some 0x60E#32], 85050),
      ([some 0x226#32, some 0x226#32, some 0x226#32, some 0x226#32, some 0x226#32], 53050),
      ([some 0x60E#32, some 0x60E#32, some 0x60E#32, some 0x226#32, some 0x60E#32], 75050),
      ([some 0x226#32, some 0x60E#32, some 0x60E#32, some 0x60E#32, some 0x226#32], 83050),
      ([some 0x60E#32, some 0x226#32, some 0x60E#32, some 0x60E#32, some 0x60E#32], 84050)] := by decide

-- DECODE

/-- V-D1.8 to V-D1.45: each check's bounds, the wrong kinds, and the bits a space flips. -/
theorem test_decode_windows :
    ([(0, 0x800018E6#32), (0, 0x800018E7#32), (0, 0x80002981#32), (0, 0x80002982#32), (0, 0x00002134#32),
      (1, 0x00000CE3#32), (1, 0x0000157C#32), (2, 0x8000019C#32), (2, 0x800002AF#32), (3, 0x0000019D#32),
      (3, 0x0000041A#32), (3, 0x0000048B#32), (3, 0x00000000#32), (3, 0x8000060E#32), (65, 0x00000226#32),
      (19, 0x00000258#32), (66, 0x8000019C#32), (66, 0x8000019D#32), (67, 0x0000157D#32)].map fun c =>
      decoded quarter 68#32 [c]) =
    [(2#32, 0#32), (0#32, 0x4BA81848#32), (0#32, 0x4BA81848#32), (2#32, 0#32), (2#32, 0#32),
      (2#32, 0#32), (0#32, 0x4BA81848#32), (3#32, 0#32), (0#32, 0x4BA81848#32), (0#32, 0x4BA81849#32),
      (3#32, 0#32), (0#32, 0x4BA81848#32), (3#32, 0#32), (3#32, 0#32), (0#32, 0xCBA81848#32),
      (0#32, 0x4BA81948#32), (4#32, 0#32), (0#32, 0x4BA81848#32), (4#32, 0#32)] := by decide +kernel

/-- V-D1.1, .4, .5, .7, .46 to .48 (length, two errors at once) and V-D2.1 to .3, .5, .6, .10 (other tolerances). -/
theorem test_decode_order_and_tolerance :
    [decoded quarter 68#32 [], decoded quarter 67#32 [], decoded quarter 69#32 [], decoded quarter 0xFFFFFFFF#32 [],
      decoded quarter 68#32 [(0, 0x80000BB8#32), (13, 0x00000384#32)],
      decoded quarter 68#32 [(13, 0x00000384#32), (67, 0x00000064#32)],
      decoded quarter 67#32 [(0, 0x80000BB8#32)],
      decoded 0 68#32 [], decoded 0 68#32 [(3, 0x0000060F#32)],
      decoded (1 / 2) 68#32 [(3, 0x00000384#32)], decoded (1 / 2) 68#32 [(3, 0x0000044C#32)],
      decoded (10 / 31) 68#32 [(3, 0x0000041A#32)], decoded (99 / 100) 68#32 [(0, 0x80000054#32)]] =
    [(0#32, 0x4BA81848#32), (1#32, 0#32), (1#32, 0#32), (1#32, 0#32), (2#32, 0#32), (3#32, 0#32), (1#32, 0#32),
      (0#32, 0x4BA81848#32), (3#32, 0#32), (0#32, 0x4BA81849#32), (0#32, 0x4BA81848#32), (3#32, 0#32),
      (2#32, 0#32)] := by decide +kernel

/-- L3-P5, run B: the lead-in passes and PULSE[2] was never written; with a bad lead-in mark there is no fault. -/
theorem test_decode_unwritten_entry :
    (after (exec .decode ((((State.reset.writePulseLen 0x44#32).writePulse 0 0x80002134#32).writePulse 1
      0x00001130#32)))).fault = some .uninitRead ∧
    (after (exec .decode ((State.reset.writePulseLen 0x44#32).writePulse 0 0x80000BB8#32))).status = 2#32 ∧
    (after (exec .decode ((State.reset.writePulseLen 0x44#32).writePulse 0 0x80000BB8#32))).fault = none := by decide

-- The bus, from the state of V-B: TEMP_C written and COMPILE done.

/-- Where V-B starts. -/
def busState : State := after (exec .compile (State.reset.writeTempC 0x41C00000#32))

/-- V-B.1 to V-B.10: every one of these accesses is BadAccess. -/
theorem test_bus_bad_accesses : ([HostAccess.read 0x040 4, .read 0x0FC 4, .read 0x210 4, .read 0x3FC 4,
    .read 0x006 4, wr 0x102 0#32, .read 0x010 1, .write 0x008 [0x01#8, 0x00#8], .read 0x00C 8,
    wr 0x040 0x12345678#32].all fun a =>
      decide (after (stepOn a busState) = { busState with fault := some .badAccess })) = true := by decide +kernel

/-- V-B.11 to V-B.14 and R54: what the reads return, lane 0 first. -/
theorem test_bus_reads : ([0x000, 0x010, 0x038, 0x03C].map fun off => (after (stepOn (.read off 4) busState)).replies) =
    [[[0x00#8, 0x00#8, 0x00#8, 0x00#8]], [[0x48#8, 0x12#8, 0x32#8, 0x4B#8]], [[0x10#8, 0x40#8, 0x80#8, 0x00#8]],
      [[0x02#8, 0x04#8, 0x08#8, 0x00#8]]] := by decide

/-- L3-P4, lines 2, 3, 11 and 13: reserved bits dropped, constants and STATUS not written; R41: an unwritten cell. -/
theorem test_bus_writes :
    (after (stepOn (wr 0x008 0xFFFFFFFF#32) State.reset)).settings = 0x1F#32 ∧
    after (stepOn (wr 0x018 0#32) busState) = busState ∧ after (stepOn (wr 0x004 5#32) busState) = busState ∧
    after (stepOn (.read 0x100 4) busState) = { busState with fault := some .uninitRead } := by decide +kernel

/-- L3-P4, line 7, and V-I: an illegal word sets STATUS = 7 and nothing else, TEMP_C and PACKET unwritten or not. -/
theorem test_bus_illegal_command : after (stepOn (wr 0x000 0x101#32) State.reset) = { State.reset with status := 7#32 } ∧
    after (stepOn (wr 0x000 0#32) busState) = { busState with status := 7#32 } := by decide +kernel

/-- A window that starts at another base: the same accesses, moved; below it there is nothing. -/
theorem test_bus_base : let s := { State.reset with params := { tol := Config.defaultTol, base := 1024 } }
    (after (stepOn (.write 1032 [0x11#8, 0#8, 0#8, 0#8]) s)).settings = 0x11#32 ∧
    (after (stepOn (.read 0x008 4) s)).fault = some .badAccess := by decide

-- The host notation (R85, R86)

/-- TEMP: 24.0 is 0x41C00000 (V-C2), 16.67 is 0x41855C29 (SRC-2), -40.0 is 0xC2200000 (V-C2), 0 is 0; and 3.40282347e38
and more: the largest finite pattern, infinity. -/
theorem test_notation_temp : binary32OfRat 24 = 0x41C00000#32 ∧ binary32OfRat (1667 / 100) = 0x41855C29#32 ∧
    binary32OfRat (-40) = 0xC2200000#32 ∧ binary32OfRat 0 = 0x00000000#32 ∧
    binary32OfRat (2 ^ 128 - 2 ^ 104) = 0x7F7FFFFF#32 ∧ binary32OfRat (2 ^ 128) = 0x7F800000#32 := by decide +kernel

/-- L3-P1, lines 1 to 5: SET, TEMP and TRANSMIT as bus transactions (offset, data). -/
theorem test_notation_program : hostProgram 0 [.set true .cool .high, .temp 24, .transmit, .rd .packet] =
    [.write 0x008 [0x11#8, 0x00#8, 0x00#8, 0x00#8], .write 0x00C [0x00#8, 0x00#8, 0xC0#8, 0x41#8],
      .write 0x000 [0x01#8, 0x00#8, 0x00#8, 0x00#8], .write 0x000 [0x02#8, 0x00#8, 0x00#8, 0x00#8],
      .read 0x010 4] := by decide +kernel

-- Witnesses: for each statement with hypotheses, a state and operands that meet them.

/-- A state with one access pending. -/
def with1 (a : HostAccess) (s : State) : State := { s with pending := [a] }

theorem test_witness_EncodedCommandsDecodeToThemselves : Instr.wf .decode = true ∧
    decodeWord 3#32 = .ok .decode ∧ (3#32 : Word) = Sys2Proof.encode .decode := by decide

theorem test_witness_IllegalWordSetsOnlyStatus :
    (∃ w : Word, w ≠ 1#32 ∧ w ≠ 2#32 ∧ w ≠ 3#32) ∧
    (0x80000001#32 : Word) ≠ 1#32 ∧ (0x80000001#32 : Word) ≠ 2#32 ∧ (0x80000001#32 : Word) ≠ 3#32 :=
  ⟨⟨0#32, by decide⟩, by decide⟩

theorem test_witness_StepRunsTheDecodedInstruction :
    (with1 (.write 0 [1#8, 0#8, 0#8, 0#8]) busState).Next (.write (busState.params.base + 0) [1#8, 0#8, 0#8, 0#8]) [] ∧
    decodeBytes [1#8, 0#8, 0#8, 0#8] = .ok (.compile, []) := by decide

theorem test_witness_PlacedTableWordRuns : busState.fault = none ∧ decodeTableWord 32 2 = some .encode := by decide

theorem test_witness_IdleBlockHoldsItsRegisters : State.reset.fault = none ∧ State.reset.pending = [] := by decide

theorem test_witness_FaultedStateStops : (State.reset.raise .badAccess).fault = some .badAccess ∧
    (State.reset.raise .uninitRead).fault = some .uninitRead := by decide

theorem test_witness_FaultMarkIsNeverCleared :
    (∃ t, exec .compile ((set 0#32 0#32).raise .badAccess) = .next t) ∧
    (∃ t, performAccess (wr 0x008 0#32) (State.reset.raise .badAccess) = .next t) ∧
    (State.reset.raise .badAccess).fault ≠ none ∧ ((set 0#32 0#32).raise .badAccess).fault ≠ none :=
  ⟨⟨_, next_after (by decide +kernel)⟩, ⟨_, next_after (by decide +kernel)⟩, by decide, by decide⟩

theorem test_witness_FaultingAccessChangesNothingElse :
    ∃ t, step (with1 (.read 0x010 4) State.reset) = .next t ∧ t.fault ≠ none := ⟨_, next_after (by decide +kernel), by decide +kernel⟩

/-- One witness for each of the three ways, and the first and last offsets of both unmapped ranges. -/
theorem test_witness_BadAccessFaults :
    ([(0x010, 1), (0x006, 4), (0x040, 4), (0x0FC, 4), (0x210, 4), (0x3FC, 4)].all fun p =>
      decide ((with1 (.read p.1 p.2) busState).Next (.read p.1 p.2) [] ∧
        (HostAccess.read p.1 p.2).addr = busState.params.base + p.1 ∧ p.1 < 1024 ∧
        (p.2 ≠ 4 ∨ p.1 % 4 ≠ 0 ∨ ¬(p.1 < 0x40 ∨ (0x100 ≤ p.1 ∧ p.1 < 0x210))))) = true := by decide +kernel

/-- The last good access of each mapped range, and one outside the window. -/
theorem test_witness_OnlyBadAccessesAreBadAccess :
    (∃ t, step (with1 (.read 0x03C 4) busState) = .next t ∧ GoodAccess 0 (.read 0x03C 4)) ∧
    (∃ t, step (with1 (.read 0x20C 4) busState) = .next t ∧ GoodAccess 0 (.read 0x20C 4)) ∧
    (∃ t, step (with1 (.read 0x400 4) busState) = .next t ∧ ¬GoodAccess 0 (.read 0x400 4)) :=
  ⟨⟨_, next_after (by decide +kernel), by decide +kernel⟩, ⟨_, next_after (by decide +kernel), by decide +kernel⟩, ⟨_, next_after (by decide +kernel), by decide +kernel⟩⟩

/-- A register with a value, and one without. -/
theorem test_witness_HostReadReturnsTheRegister :
    (with1 (.read 0x010 4) busState).Next (.read (busState.params.base + Reg.packet.offset) 4) [] ∧
    busState.specRead .packet = some 0x4B321248#32 ∧
    (with1 (.read 0x20C 4) busState).Next (.read (busState.params.base + (Reg.pulse 67).offset) 4) [] ∧
    busState.specRead (.pulse 67) = none := by decide

/-- Each kind of register the statement tells apart, and for CMD each of its four cases. -/
theorem test_witness_HostWriteDoesWhatTheTableSays :
    ([(Reg.cmd, 1#32), (.cmd, 2#32), (.cmd, 3#32), (.cmd, 4#32), (.status, 5#32), (.settings, 0xFF#32),
      (.tempC, 0#32), (.packet, 0#32), (.pulseLen, 69#32), (.const .fanBits, 0#32), (.pulse 67, 0x1130#32)].all fun p =>
      decide ((with1 (wr p.1.offset p.2) busState).Next (.write (busState.params.base + p.1.offset) (bytesOfWord p.2))
        [])) = true := by decide +kernel

/-- A step for each register that some access changes. -/
theorem test_witness_RegistersChangeOnlyAsTheSummarySays :
    (∃ t, step (with1 (wr 0x008 1#32) State.reset) = .next t ∧ t.settings ≠ State.reset.settings) ∧
    (∃ t, step (with1 (wr 0x00C 0#32) State.reset) = .next t ∧ t.tempC ≠ State.reset.tempC) ∧
    (∃ t, step (with1 (wr 0x000 1#32) (set 1#32 0#32)) = .next t ∧ t.packet ≠ State.reset.packet) ∧
    (∃ t, step (with1 (wr 0x000 2#32) busState) = .next t ∧ t.pulseLen ≠ busState.pulseLen) ∧
    (∃ t, step (with1 (wr 0x10C 0#32) State.reset) = .next t ∧ t.pulse[(3 : Fin 68)] ≠ State.reset.pulse[(3 : Fin 68)]) ∧
    (∃ t, step (with1 (wr 0x000 0#32) State.reset) = .next t ∧ t.status ≠ State.reset.status) :=
  ⟨⟨_, next_after (by decide +kernel), by decide +kernel⟩, ⟨_, next_after (by decide +kernel), by decide +kernel⟩, ⟨_, next_after (by decide +kernel), by decide +kernel⟩, ⟨_, next_after (by decide +kernel), by decide +kernel⟩,
    ⟨_, next_after (by decide +kernel), by decide +kernel⟩, ⟨_, next_after (by decide +kernel), by decide +kernel⟩⟩

theorem test_witness_WrittenFlagsAreNeverCleared :
    ∃ t, step (with1 (wr 0x000 3#32) captured) = .next t ∧ captured.packet.written = true ∧
      (set 0#32 0#32).tempC.written = true ∧ captured.pulse[(67 : Fin 68)].written = true :=
  ⟨_, next_after (by decide +kernel), by decide +kernel⟩

theorem test_witness_ParametersNeverChange : ∃ t, step (with1 (wr 0x000 1#32) busState) = .next t := ⟨_, next_after (by decide +kernel)⟩

/-- The three kinds of pattern R77 tells apart beside the finite ones, 0 and 24.0. -/
theorem test_witness_TemperatureIsTheBinary32Value :
    Temp.ofWord 0x80000000#32 = .finite { num := 0, den := 2 ^ 149 } ∧
    Temp.ofWord 0x41C00000#32 = .finite { num := 0xC00000, den := 2 ^ 19 } ∧ Temp.ofWord 0xFF800000#32 = .inf true ∧
    Temp.ofWord 0x7F800000#32 = .inf false ∧ Temp.ofWord 0x7F800001#32 = .nan := by decide +kernel

/-- A half above 0, a half below 0, and a value that is no half. -/
theorem test_witness_RoundingIsHalfAwayFromZero :
    ([(({ num := 5, den := 2 } : Frac), (3 : Int)), ({ num := -5, den := 2 }, -3), ({ num := 376, den := 5 }, 75)].all
      fun p => decide (0 < p.1.den ∧ p.1.roundHalfAway = p.2)) = true := by decide

/-- No NaN: an infinity; and finite patterns of the first, a middle and the last interval. -/
theorem test_witness_SetpointIntervals : ¬IsNaN 0x7F800000#32 ∧
    ([0x41878E37#32, 0x418C0000#32, 0x41EDC745#32].all fun w => decide (¬IsNaN w ∧ specExp w ≠ 255)) = true := by
  decide +kernel

/-- 17.5 lies on the bound of 64. -/
theorem test_witness_OnlyThreeInputsAreExactHalves :
    Temp.ofWord 0x418C0000#32 = .finite { num := 0x8C0000, den := 2 ^ 19 } ∧
    ({ num := 0x8C0000, den := 2 ^ 19 } : Frac).toRat = (2 * ((64 : Nat) : ℚ) - 65) * (5 / 18) :=
  ⟨by decide +kernel, by norm_num [Frac.toRat]⟩

/-- A finite temperature, an infinity and a NaN. -/
theorem test_witness_CompileWritesPacketAndStatus :
    (set 0x11#32 0x41C00000#32).tempC.written = true ∧ ¬IsNaN 0x41C00000#32 ∧
    (set 0x11#32 0xFF800000#32).tempC.written = true ∧ ¬IsNaN 0xFF800000#32 ∧
    (set 0x11#32 0x7FC00000#32).tempC.written = true ∧ IsNaN 0x7FC00000#32 := by decide +kernel

theorem test_witness_PowerOffKeepsModeAndFan : (0x10#32 : Word) >>> 1 = (0x11#32 : Word) >>> 1 := by decide

theorem test_witness_UnwrittenOperandFaults :
    State.reset.tempC.written = false ∧ State.reset.packet.written = false := by decide

/-- A written temperature that is no NaN, and an unwritten one. -/
theorem test_witness_CompileFrame :
    (∃ t, exec .compile (set 0x11#32 0x41C00000#32) = .next t ∧ (set 0x11#32 0x41C00000#32).tempC.written = true ∧
      ¬IsNaN (set 0x11#32 0x41C00000#32).tempC.word) ∧ ∃ t, exec .compile State.reset = .next t :=
  ⟨⟨_, next_after (by decide +kernel), by decide +kernel⟩, ⟨_, next_after (by decide +kernel)⟩⟩

theorem test_witness_EncodeWritesTheTrainAndTransmits : busState.packet.written = true := by decide

theorem test_witness_EncodeFrame :
    (∃ t, exec .encode busState = .next t ∧ busState.packet.written = true) ∧ ∃ t, exec .encode State.reset = .next t :=
  ⟨⟨_, next_after (by decide +kernel), by decide +kernel⟩, ⟨_, next_after (by decide +kernel)⟩⟩

/-- A step that transmits and one that does not. -/
theorem test_witness_OnlyEncodeTransmits :
    (∃ t, step (with1 (wr 0x000 2#32) busState) = .next t ∧ t.txLog ≠ busState.txLog) ∧
    ∃ t, step (with1 (wr 0x000 1#32) busState) = .next t ∧ t.txLog = busState.txLog :=
  ⟨⟨_, next_after (by decide +kernel), by decide +kernel⟩, ⟨_, next_after (by decide +kernel), by decide +kernel⟩⟩

/-- Both ends of each range of R161. -/
theorem test_witness_DefaultWindows :
    ([(6375, 8500), (10625, 8500), (3300, 4400), (5500, 4400), (413, 550), (687, 550)].map fun p =>
      within quarter p.1 p.2) = [true, true, true, true, true, true] ∧
    ([(6374, 8500), (10626, 8500), (3299, 4400), (5501, 4400), (412, 550), (688, 550)].map fun p =>
      within quarter p.1 p.2) = [false, false, false, false, false, false] ∧
    [1163, 1937].map (classify quarter) = [.ok false, .ok false] ∧
    [412, 688, 1162, 1938].map (classify quarter) = [.error (.err .ambiguousBit), .error (.err .ambiguousBit),
      .error (.err .ambiguousBit), .error (.err .ambiguousBit)] := by decide +kernel

/-- Both ends of the range of tolerances: 0, and 3/10, just below 10/31; and at TOL = 1/2 a space in both windows, one in
the long window nearer either nominal (V-D2.3 to .5), the tie, and one outside both windows. -/
theorem test_witness_ClassificationIsByNearness :
    (((0 : ℚ) ≤ 0 ∧ (0 : ℚ) < 10 / 31) ∧ (0 : ℚ) ≤ 3 / 10 ∧ (3 / 10 : ℚ) < 10 / 31) ∧
    [800, 900, 1100, 1050, 274].map (classify (1 / 2)) =
      [.ok true, .ok true, .ok false, .error (.err .ambiguousBit), .error (.err .ambiguousBit)] :=
  ⟨by norm_num, by decide +kernel⟩

theorem test_witness_DecodeRejectsWrongLength :
    ([0#32, 67#32, 69#32, 0xFFFFFFFF#32].all fun len => decide ((captured.writePulseLen len).pulseLen ≠ 68#32)) =
      true := by decide +kernel

/-- For each position where the code changes, a train whose check fails first there: the wrong kind (V-D1.13, .18,
.23, .34, and cell 31 and the trailer alike). -/
theorem test_witness_DecodeReportsTheFirstFailingCheck :
    ([((0 : Fin 68), 0x00002134#32), (1, 0x80001130#32), (2, 0x00000226#32), (3, 0x8000060E#32),
      (65, 0x80000226#32), (66, 0x00000226#32), (67, 0x80001130#32)].all fun p =>
      let s := captured.writePulse p.1 p.2
      decide (s.pulseLen = 68#32) && decide (p.1.val < 68) && decide (PassesBefore s.params.tol s.pulse p.1.val) &&
        decide (∃ e ∈ entryAt s.pulse p.1.val, ¬PositionPasses s.params.tol p.1.val e)) = true := by decide +kernel

/-- L3-P5, run B, and the first position. -/
theorem test_witness_DecodeFaultsAtAnUnwrittenEntry :
    let s := ((State.reset.writePulseLen 68#32).writePulse 0 0x80002134#32).writePulse 1 0x00001130#32
    s.pulseLen = 68#32 ∧ PassesBefore s.params.tol s.pulse 2 ∧ entryAt s.pulse 2 = none ∧
    PassesBefore State.reset.params.tol State.reset.pulse 0 ∧ entryAt State.reset.pulse 0 = none :=
  ⟨by decide +kernel, by decide +kernel, by decide +kernel, by decide +kernel, by decide +kernel⟩

/-- The V-E1 train and its packet. -/
theorem test_witness_DecodeReturnsTheAssembledPacket :
    captured.pulseLen = 68#32 ∧ PassesBefore captured.params.tol captured.pulse 68 ∧
    ∀ k, k < 32 → ∀ e ∈ entryAt captured.pulse (3 + 2 * k),
      (0x4BA81848#32 : Word).getLsbD k = decide (NearerShort e.dur) :=
  ⟨by decide +kernel, by decide +kernel, by decide +kernel⟩

/-- A DECODE that changes PACKET with every entry written, one that does not change it, and one that faults. -/
theorem test_witness_DecodeFrame :
    (∃ t, exec .decode captured = .next t ∧ t.packet ≠ captured.packet ∧
      ∀ i : Fin 68, captured.pulse[i].written = true) ∧
    (∃ t, exec .decode State.reset = .next t) ∧ ∃ t, exec .decode (State.reset.writePulseLen 68#32) = .next t :=
  ⟨⟨_, next_after (by decide +kernel), by decide +kernel⟩, ⟨_, next_after (by decide +kernel)⟩, ⟨_, next_after (by decide +kernel)⟩⟩

/-- One for each of the three ways a CMD write can end. -/
theorem test_witness_ErrorResultsWriteOnlyStatus :
    (∃ t, command 1#32 busState = .next t ∧ t.status = 0#32) ∧ (∃ t, command 3#32 busState = .next t ∧ t.status = 1#32) ∧
    ∃ t, command 2#32 State.reset = .next t ∧ t.fault = some .uninitRead :=
  ⟨⟨_, next_after (by decide +kernel), by decide +kernel⟩, ⟨_, next_after (by decide +kernel), by decide +kernel⟩, ⟨_, next_after (by decide +kernel), by decide +kernel⟩⟩

/-- Both ends of the range of tolerances. -/
theorem test_witness_DecodeInvertsEncode : ((0 : ℚ) ≤ 0 ∧ (0 : ℚ) < 1) ∧ (0 : ℚ) ≤ 99 / 100 ∧ (99 / 100 : ℚ) < 1 := by
  norm_num

theorem test_witness_CompileEncodeDecodeRestoresThePacket :
    (set 0x10#32 0x41C00000#32).tempC.written = true ∧ 0 ≤ (set 0x10#32 0x41C00000#32).params.tol := by decide +kernel

theorem test_witness_LegalStatesStepToLegalStates :
    State.reset.Legal ∧ ∃ t, step (with1 (wr 0x000 2#32) State.reset) = .next t := ⟨by decide +kernel, ⟨_, next_after (by decide +kernel)⟩⟩

/-- Two states that differ in the word of an unwritten cell. -/
theorem test_witness_UnwrittenWordsAreNeverSeen :
    let s := State.reset
    let t := { State.reset with tempC := { word := 1#32, written := false } }
    s ≠ t ∧ s.observed = t.observed := by decide +kernel

/-- The longest and the shortest duration. -/
theorem test_witness_PulseWordRoundTrip :
    ({ kind := .mark, dur := 2 ^ 31 - 1 } : PulseEntry).dur < 2 ^ 31 ∧
    ({ kind := .space, dur := 0 } : PulseEntry).dur < 2 ^ 31 ∧
    PulseEntry.toWord { kind := .mark, dur := 2 ^ 31 - 1 } = 0xFFFFFFFF#32 ∧
    PulseEntry.toWord { kind := .space, dur := 0 } = 0x00000000#32 := by decide +kernel

theorem test_witness_NotationWordsCarryTheirOperands :
    (0x00000000#32 : Word).toNat < 2 ^ 31 ∧ (0x7FFFFFFF#32 : Word).toNat < 2 ^ 31 := by decide

end Sys2Proof.Tests
end

section
/-! SUPPORT. What each command answers, and what an access does to FAULT: the lemmas the statements of scope use. -/

namespace Sys2Proof.Machine

/-- Everything a command can answer: it meets an unwritten operand; COMPILE or DECODE writes PACKET; ENCODE writes its
train and hands it to the sink; DECODE reports a failed check. -/
theorem exec_forms {i : Instr} {s t : State} (h : exec i s = .next t) :
    t = s.raise .uninitRead ∨
    (∃ n w, t = ((s.useDraws n).writePacket w).setResult .ok) ∨
    (∃ p, t = (((s.writeTrain (trainWord (encodeTrain p))).writePulseLen (BitVec.ofNat 32 trainLen)).emitTx
      { carrierHz := carrierHz, train := encodeTrain p }).setResult .ok) ∨
    (∃ w, t = (s.writePacket w).setResult .ok) ∨
    ∃ e, t = s.setResult (.decodeError e) := by
  cases i with
  | compile =>
    change execCompile s = _ at h
    obtain ⟨_, h'⟩ | ⟨_, h'⟩ := execCompile_cases s <;> rw [h'] at h <;> cases h
    · exact .inl rfl
    · exact .inr (.inl ⟨_, _, rfl⟩)
  | encode =>
    change execEncode s = _ at h
    obtain ⟨_, h'⟩ | ⟨_, h'⟩ := execEncode_cases s <;> rw [h'] at h <;> cases h
    · exact .inl rfl
    · exact .inr (.inr (.inl ⟨_, rfl⟩))
  | decode =>
    change execDecode s = _ at h
    obtain ⟨_, _, h'⟩ | ⟨_, _, h'⟩ | ⟨_, h'⟩ := execDecode_cases s <;> rw [h'] at h <;> cases h
    · exact .inr (.inr (.inr (.inl ⟨_, rfl⟩)))
    · exact .inr (.inr (.inr (.inr ⟨_, rfl⟩)))
    · exact .inl rfl

/-- Every command completes on every state (R6, R207). -/
theorem exec_answers_next (i : Instr) (s : State) : ∃ t, exec i s = .next t := by
  cases i with
  | compile => obtain ⟨_, h⟩ | ⟨_, h⟩ := execCompile_cases s <;> exact ⟨_, h⟩
  | encode => obtain ⟨_, h⟩ | ⟨_, h⟩ := execEncode_cases s <;> exact ⟨_, h⟩
  | decode => obtain ⟨_, _, h⟩ | ⟨_, _, h⟩ | ⟨_, h⟩ := execDecode_cases s <;> exact ⟨_, h⟩

/-- Every word written to CMD completes, an illegal one too (R72). -/
theorem command_answers_next (w : Word) (s : State) : ∃ t, command w s = .next t := by
  obtain ⟨i, _, _, h⟩ | ⟨_, h⟩ := command_cases w s <;> rw [h]
  · exact exec_answers_next i s
  · exact ⟨_, rfl⟩

/-- Every host write completes. -/
theorem hostWrite_answers_next (r : Reg) (w : Word) (s : State) : ∃ t, hostWrite r w s = .next t := by
  cases r with
  | cmd => exact command_answers_next w s
  | _ => exact ⟨_, rfl⟩

/-- Every host access completes, a bad one with FAULT set (R55). -/
theorem performAccess_answers_next (a : HostAccess) (s : State) : ∃ t, performAccess a s = .next t := by
  obtain ⟨_, h⟩ | ⟨_, _, _, _, _, h⟩ | ⟨r, _, bytes, _, _, h⟩ := performAccess_cases a s <;> rw [h]
  · exact ⟨_, rfl⟩
  · exact ⟨_, rfl⟩
  · exact hostWrite_answers_next r (wordOfBytes bytes) s

/-- A state whose FAULT is set stops with that reason (R206). -/
theorem step_of_fault {s : State} {r : Fault} (h : s.fault = some r) : step s = .fault r := by
  simp [step, h]

/-- A state whose FAULT is clear goes on. -/
theorem step_of_fault_eq_none {s : State} (h : s.fault = none) : ∃ t, step s = .next t := by
  cases hp : s.pending with
  | nil => exact ⟨s, by simp [step, h, hp]⟩
  | cons a rest => simpa [step, h, hp] using performAccess_answers_next a (s.setPending rest)

/-- A CMD write keeps FAULT or only sets it. -/
theorem command_fault {w : Word} {s t : State} (h : command w s = .next t) :
    t.fault = s.fault ∨ ∃ r, t = s.raise r := by
  obtain ⟨i, _, _, h'⟩ | ⟨_, h'⟩ := command_cases w s <;> rw [h'] at h
  · exact (exec_fault h).imp_right fun ht => ⟨_, ht⟩
  · cases h
    exact .inl rfl

/-- A host write keeps FAULT or only sets it. -/
theorem hostWrite_fault {r : Reg} {w : Word} {s t : State} (h : hostWrite r w s = .next t) :
    t.fault = s.fault ∨ ∃ f, t = s.raise f := by
  cases r with
  | cmd => exact command_fault h
  | _ =>
    cases h
    exact .inl rfl

/-- A host access keeps FAULT or does nothing but set it (R11, R41, R55). -/
theorem performAccess_fault {a : HostAccess} {s t : State} (h : performAccess a s = .next t) :
    t.fault = s.fault ∨ ∃ r, t = s.raise r := by
  obtain ⟨_, h'⟩ | ⟨r, _, _, _, _, h'⟩ | ⟨_, _, _, _, _, h'⟩ := performAccess_cases a s <;> rw [h'] at h
  · cases h
    exact .inr ⟨_, rfl⟩
  · cases h
    obtain ⟨_, _, hr⟩ | ⟨_, hr⟩ := hostRead_cases r s <;> rw [hr]
    · exact .inl rfl
    · exact .inr ⟨_, rfl⟩
  · exact hostWrite_fault h

/-- No command touches the parameters (R9, R10). -/
theorem exec_params {i : Instr} {s t : State} (h : exec i s = .next t) : t.params = s.params := by
  obtain rfl | ⟨_, _, rfl⟩ | ⟨_, rfl⟩ | ⟨_, rfl⟩ | ⟨_, rfl⟩ := exec_forms h <;> rfl

/-- No write of a register other than CMD touches the parameters (R9, R10). -/
theorem hostWrite_params {r : Reg} {w : Word} {s t : State} (hr : r ≠ .cmd) (h : hostWrite r w s = .next t) :
    t.params = s.params := by
  cases r with
  | cmd => contradiction
  | _ =>
    cases h
    rfl

/-- No step touches the parameters (R9, R10). -/
theorem step_params {s t : State} (h : step s = .next t) : t.params = s.params := by
  obtain rfl | ⟨_, _, rfl⟩ | ⟨_, _, rfl⟩ | ⟨_, _, _, he⟩ | ⟨_, _, _, rfl⟩ | ⟨_, _, _, hr, _, hw⟩ := step_forms h
  · rfl
  · rfl
  · rfl
  · simpa using exec_params he
  · rfl
  · simpa using hostWrite_params hr hw

end Sys2Proof.Machine
end

section
/-! SUPPORT. Legal states: which updates keep a state legal, and that the event of an ENCODE is a legal one. -/

namespace Sys2Proof.Machine

/-- Every result a command reports has a code of R84. -/
theorem CommandResult.code_legal (r : CommandResult) : LegalStatus r.code := by
  rcases r with _ | (_ | _ | _ | _) | _ <;> decide

/-- A bit cell is a Mark, then a Space, whatever its bit (R131). -/
theorem bitCell_kinds (b : Bool) : (bitCell b).map PulseEntry.kind = [.mark, .space] := rfl

/-- The kinds of a train: Mark and Space in turn, 34 times (R133). -/
theorem encodeTrain_kinds (p : Packet) :
    (encodeTrain p).map PulseEntry.kind = (List.replicate 34 [PulseKind.mark, .space]).flatten := by
  simp only [encodeTrain, byteCells, Packet.bytes, List.map_append, List.map_flatMap, bitCell_kinds]
  rfl

/-- A train has `TRAIN_LEN` entries (R8, R133). -/
@[simp] theorem encodeTrain_length (p : Packet) : (encodeTrain p).length = 68 := by
  rw [← List.length_map PulseEntry.kind, encodeTrain_kinds]
  rfl

/-- Entry n of a train is a Mark where n is even and a Space where it is odd (R133). -/
theorem encodeTrain_kind (p : Packet) {n : Nat} (hn : n < 68) :
    ((encodeTrain p)[n]?).map PulseEntry.kind = some (if n % 2 = 0 then .mark else .space) := by
  rw [← List.getElem?_map, encodeTrain_kinds]
  revert n
  decide

/-- A train ends in the stop space (R132, R211). -/
theorem encodeTrain_last (p : Packet) : (encodeTrain p)[67]? = some { kind := .space, dur := 4400 } := by
  have hlast : (encodeTrain p).getLast? = some { kind := .space, dur := 4400 } := by
    simp [encodeTrain, trailer, stopSpaceUs]
  rwa [List.getLast?_eq_getElem?, encodeTrain_length] at hlast

/-- The event an ENCODE hands to the sink is a legal one (R30, R133, R211). -/
theorem encodeTrain_legalEvent (p : Packet) : LegalEvent { carrierHz := carrierHz, train := encodeTrain p } :=
  ⟨rfl, encodeTrain_length p, fun _ hn => encodeTrain_kind p hn, encodeTrain_last p⟩

-- Legality speaks of STATUS, SETTINGS, TXLOG and the parameters: these updates leave all four as they are.
theorem State.Legal.raise {s : State} (h : s.Legal) (r : Fault) : (s.raise r).Legal := h
theorem State.Legal.reply {s : State} (h : s.Legal) (b : List Byte) : (s.reply b).Legal := h
theorem State.Legal.setPending {s : State} (h : s.Legal) (l : List HostAccess) : (s.setPending l).Legal := h
theorem State.Legal.useDraws {s : State} (h : s.Legal) (n : Nat) : (s.useDraws n).Legal := h
theorem State.Legal.writeTempC {s : State} (h : s.Legal) (w : Word) : (s.writeTempC w).Legal := h
theorem State.Legal.writePacket {s : State} (h : s.Legal) (w : Word) : (s.writePacket w).Legal := h
theorem State.Legal.writePulseLen {s : State} (h : s.Legal) (w : Word) : (s.writePulseLen w).Legal := h
theorem State.Legal.writePulse {s : State} (h : s.Legal) (i : Fin 68) (w : Word) : (s.writePulse i w).Legal := h
theorem State.Legal.writeTrain {s : State} (h : s.Legal) (t : Fin 68 → Word) : (s.writeTrain t).Legal := h

/-- A reported result keeps a state legal (R84). -/
theorem State.Legal.setResult {s : State} (h : s.Legal) (r : CommandResult) : (s.setResult r).Legal := by
  obtain ⟨_, hset, hlog, hpar⟩ := h
  exact ⟨r.code_legal, hset, hlog, hpar⟩

/-- A write of SETTINGS leaves the reserved bits 0 (R24, R57). -/
theorem State.Legal.writeSettings {s : State} (h : s.Legal) (w : Word) : (s.writeSettings w).Legal := by
  obtain ⟨hst, _, hlog, hpar⟩ := h
  have hset : ((w.extractLsb' 0 5).setWidth 32).toNat < 32 := by
    rw [BitVec.toNat_setWidth_of_le (by decide)]
    exact (w.extractLsb' 0 5).isLt
  exact ⟨hst, hset, hlog, hpar⟩

/-- A legal event keeps the log legal (R30). -/
theorem State.Legal.emitTx {s : State} {e : TxEvent} (h : s.Legal) (he : LegalEvent e) : (s.emitTx e).Legal := by
  obtain ⟨hst, hset, hlog, hpar⟩ := h
  refine ⟨hst, hset, fun e' he' => ?_, hpar⟩
  obtain hold | hnew := List.mem_append.1 he'
  · exact hlog e' hold
  · rwa [List.mem_singleton.1 hnew]

/-- Every command keeps a state legal. -/
theorem State.Legal.exec {i : Instr} {s t : State} (h : s.Legal) (he : exec i s = .next t) : t.Legal := by
  obtain rfl | ⟨n, w, rfl⟩ | ⟨p, rfl⟩ | ⟨w, rfl⟩ | ⟨e, rfl⟩ := exec_forms he
  · exact h.raise _
  · exact ((h.useDraws n).writePacket w).setResult _
  · exact (((h.writeTrain _).writePulseLen _).emitTx (encodeTrain_legalEvent p)).setResult _
  · exact (h.writePacket w).setResult _
  · exact h.setResult _

/-- Every write of a register other than CMD keeps a state legal. -/
theorem State.Legal.hostWrite {r : Reg} {w : Word} {s t : State} (h : s.Legal) (hr : r ≠ .cmd)
    (hw : hostWrite r w s = .next t) : t.Legal := by
  cases r with
  | cmd => contradiction
  | status => cases hw; exact h
  | settings => cases hw; exact h.writeSettings w
  | tempC => cases hw; exact h.writeTempC w
  | packet => cases hw; exact h.writePacket w
  | pulseLen => cases hw; exact h.writePulseLen w
  | const _ => cases hw; exact h
  | pulse i => cases hw; exact h.writePulse i w

/-- Every step keeps a state legal. -/
theorem State.Legal.step {s t : State} (h : s.Legal) (hs : step s = .next t) : t.Legal := by
  obtain rfl | ⟨rest, r, rfl⟩ | ⟨rest, b, rfl⟩ | ⟨rest, i, _, he⟩ | ⟨rest, _, _, rfl⟩ | ⟨rest, _, r, hr, _, hw⟩ :=
    step_forms hs
  · exact h
  · exact (h.setPending rest).raise r
  · exact (h.setPending rest).reply b
  · exact (h.setPending rest).exec he
  · exact (h.setPending rest).setResult .illegalCommand
  · exact (h.setPending rest).hostWrite hr hw

end Sys2Proof.Machine
end

section
/-! SUPPORT. The rounding of R13 and the window of R14 in ℚ. -/

namespace Sys2Proof.Machine

/-- A fraction has the sign of its numerator. -/
theorem Frac.toRat_nonneg_iff {a : Frac} (hd : 0 < a.den) : 0 ≤ a.toRat ↔ 0 ≤ a.num := by
  have hd' : (0 : ℚ) < a.den := by exact_mod_cast hd
  rw [Frac.toRat, le_div_iff₀ hd', zero_mul, Int.cast_nonneg_iff]

/-- `(2n + d) div 2d` is the nearest integer to `n / d`, a half going up. -/
theorem round_div (n : ℤ) {d : ℕ} (hd : 0 < d) : round ((n : ℚ) / d) = (2 * n + d) / (2 * d) := by
  have hd' : (d : ℚ) ≠ 0 := by exact_mod_cast hd.ne'
  have hx : (n : ℚ) / d + 1 / 2 = ((2 * n + d : ℤ) : ℚ) / ((2 * d : ℕ) : ℚ) := by
    push_cast
    field_simp
  rw [round_eq, hx, Rat.floor_intCast_div_natCast]
  push_cast
  rfl

/-- Of a value of at least 0 a half goes up. -/
theorem Frac.roundHalfAway_of_nonneg {a : Frac} (hd : 0 < a.den) (hn : 0 ≤ a.toRat) :
    a.roundHalfAway = round a.toRat := by
  rw [Frac.roundHalfAway, if_pos ((Frac.toRat_nonneg_iff hd).1 hn), Frac.toRat, round_div _ hd]

/-- A negative value is rounded as its absolute value is. -/
theorem Frac.roundHalfAway_of_neg {a : Frac} (hd : 0 < a.den) (hn : a.toRat < 0) :
    a.roundHalfAway = -round (-a.toRat) := by
  have hneg : -a.toRat = ((-a.num : ℤ) : ℚ) / a.den := by simp [Frac.toRat, neg_div]
  rw [Frac.roundHalfAway, if_neg fun h => hn.not_ge ((Frac.toRat_nonneg_iff hd).2 h), hneg, round_div _ hd]

/-- Where a value of at least 0 lies halfway, Mathlib's `round` has the larger magnitude. -/
theorem abs_lt_abs_round_of_half {x : ℚ} (hx : 0 ≤ x) (h : |x - round x| = 1 / 2) : |x| < |(round x : ℚ)| := by
  have hlt : x + 1 / 2 < round x + 1 := by
    rw [round_eq]
    exact Int.lt_floor_add_one _
  have hup : (round x : ℚ) = x + 1 / 2 := by
    rcases abs_cases (x - round x) with ⟨h', _⟩ | ⟨h', _⟩ <;> linarith
  rw [hup, abs_of_nonneg hx, abs_of_nonneg (by linarith)]
  linarith

/-- The test multiplied out by a positive denominator is the test in ℚ. -/
theorem mul_den_le_iff {tol x y : ℚ} : x * tol.den ≤ y * tol.den ↔ x ≤ y :=
  mul_le_mul_iff_left₀ (by exact_mod_cast tol.den_pos)

/-- R14's test on integers is its test in ℚ. -/
theorem within_iff_inWindow (tol : ℚ) (d nom : Nat) : within tol d nom = true ↔ InWindow tol d nom := by
  have hnum : tol * tol.den = tol.num := Rat.mul_den_eq_num tol
  have hlow : (nom : ℤ) * (tol.den - tol.num) ≤ d * tol.den ↔ (nom : ℚ) * (1 - tol) ≤ d := by
    rw [← mul_den_le_iff (tol := tol), mul_assoc, sub_mul, one_mul, hnum]
    exact_mod_cast Iff.rfl
  have hhigh : (d : ℤ) * tol.den ≤ nom * (tol.den + tol.num) ↔ (d : ℚ) ≤ nom * (1 + tol) := by
    rw [← mul_den_le_iff (tol := tol), mul_assoc, add_mul, one_mul, hnum]
    exact_mod_cast Iff.rfl
  rw [within, Bool.and_eq_true, decide_eq_true_iff, decide_eq_true_iff, hlow, hhigh]

end Sys2Proof.Machine
end

section
/-! CERTIFICATES. The statements of 00_scope.md, settled. -/

namespace Sys2Proof.Machine

/-- Settles O46: every kind of step keeps the four parts of legality. -/
theorem legalStatesStepToLegalStates : Obligations.LegalStatesStepToLegalStates :=
  fun _ _ hs h => hs.step h

/-- Settles O8: commands and accesses always complete, so only FAULT stops a step. -/
theorem onlyFaultedStatesStop : Obligations.OnlyFaultedStatesStop := by
  refine ⟨exec_answers_next, fun s => ?_⟩
  cases hf : s.fault with
  | none =>
    obtain ⟨t, ht⟩ := step_of_fault_eq_none hf
    simp [ht]
  | some r => simp [step_of_fault hf]

/-- Settles O10: FAULT is clear before the step, so the access did nothing but set it. -/
theorem faultingAccessChangesNothingElse : Obligations.FaultingAccessChangesNothingElse := by
  intro s t h hft
  obtain ⟨hf, ⟨_, rfl⟩ | ⟨a, rest, hp, ha⟩⟩ := step_cases h
  · exact absurd hf hft
  · obtain hkeep | ⟨r, rfl⟩ := performAccess_fault ha
    · exact absurd (hkeep.trans hf) hft
    · simp only [hp, List.tail_cons]
      rfl

/-- Settles O20, by the forms a step can have. -/
theorem parametersNeverChange : Obligations.ParametersNeverChange := by
  refine ⟨?_, fun _ _ h => step_params h⟩
  have htol : ((1 : ℤ) : ℚ) / (4 : ℕ) = State.reset.params.tol := Rat.num_div_den Config.defaultTol
  rw [← htol, Int.cast_one, Nat.cast_ofNat]

/-- Settles O22: `roundHalfAway` is Mathlib's `round` of the absolute value, with the sign put back. -/
theorem roundingIsHalfAwayFromZero : Obligations.RoundingIsHalfAwayFromZero := by
  intro a hd
  obtain hn | hn := le_or_gt 0 a.toRat
  · rw [Frac.roundHalfAway_of_nonneg hd hn]
    exact ⟨abs_sub_round _, abs_lt_abs_round_of_half hn, fun _ => round_eq _⟩
  · have habs : |a.toRat - ((-round (-a.toRat) : ℤ) : ℚ)| = |-a.toRat - round (-a.toRat)| := by
      rw [← abs_neg]
      push_cast
      ring_nf
    rw [Frac.roundHalfAway_of_neg hd hn, habs]
    refine ⟨abs_sub_round _, fun h => ?_, fun h => absurd h hn.not_ge⟩
    simpa using abs_lt_abs_round_of_half (neg_nonneg.2 hn.le) h

/-- Settles O35, by multiplying out the denominator of the tolerance. -/
theorem windowIsTheRationalOne : Obligations.WindowIsTheRationalOne := within_iff_inWindow

/-- Settles O47: STATUS and SETTINGS are 0, nothing was transmitted, and 1/4 and 0 are allowed parameters. -/
theorem resetStateIsLegal : Obligations.ResetStateIsLegal :=
  ⟨.inl rfl, by decide, by simp [State.reset], by decide⟩

end Sys2Proof.Machine
end

section
/-! SUPPORT. What of a state can be observed: every read and every update of the state passes through `observed`. -/

namespace Sys2Proof.Machine

-- Observing changes the unwritten cells alone.
@[simp] theorem State.observed_settings (s : State) : s.observed.settings = s.settings := rfl
@[simp] theorem State.observed_tempC (s : State) : s.observed.tempC = s.tempC.observed := rfl
@[simp] theorem State.observed_packet (s : State) : s.observed.packet = s.packet.observed := rfl
@[simp] theorem State.observed_pulseLen (s : State) : s.observed.pulseLen = s.pulseLen := rfl
@[simp] theorem State.observed_pulse (s : State) : s.observed.pulse = s.pulse.map Cell.observed := rfl
@[simp] theorem State.observed_fault (s : State) : s.observed.fault = s.fault := rfl
@[simp] theorem State.observed_params (s : State) : s.observed.params = s.params := rfl
@[simp] theorem State.observed_draws (s : State) : s.observed.draws = s.draws := rfl
@[simp] theorem State.observed_pending (s : State) : s.observed.pending = s.pending := rfl

/-- A read looks at the flag first, so it cannot tell a cell from its observed part (R41). -/
@[simp] theorem Cell.read_observed (c : Cell) : c.observed.read = c.read := by
  cases h : c.written <;> simp [Cell.observed, Cell.read, Cell.unwritten, h]

/-- A written cell is observed whole. -/
@[simp] theorem Cell.observed_holding (w : Word) : (Cell.holding w).observed = Cell.holding w := rfl

-- A write leaves no unwritten cell behind, and a command's other updates touch no cell.
@[simp] theorem State.observed_raise (s : State) (r : Fault) : (s.raise r).observed = s.observed.raise r := rfl
@[simp] theorem State.observed_setResult (s : State) (r : CommandResult) :
    (s.setResult r).observed = s.observed.setResult r := rfl
@[simp] theorem State.observed_writePacket (s : State) (w : Word) :
    (s.writePacket w).observed = s.observed.writePacket w := rfl
@[simp] theorem State.observed_writePulseLen (s : State) (w : Word) :
    (s.writePulseLen w).observed = s.observed.writePulseLen w := rfl
@[simp] theorem State.observed_emitTx (s : State) (e : TxEvent) : (s.emitTx e).observed = s.observed.emitTx e := rfl
@[simp] theorem State.observed_useDraws (s : State) (n : Nat) : (s.useDraws n).observed = s.observed.useDraws n := rfl

@[simp] theorem State.observed_writePulse (s : State) (i : Fin 68) (w : Word) :
    (s.writePulse i w).observed = s.observed.writePulse i w := by
  simp [State.observed, State.writePulse, Vector.map_set]

@[simp] theorem State.observed_writeTrain (s : State) (t : Fin 68 → Word) :
    (s.writeTrain t).observed = s.observed.writeTrain t := by
  have hbuf : (s.writeTrain t).pulse.map Cell.observed = (s.observed.writeTrain t).pulse := by
    ext i hi
    · simp
  calc (s.writeTrain t).observed
      = { s.observed with pulse := (s.writeTrain t).pulse.map Cell.observed } := rfl
    _ = s.observed.writeTrain t := by rw [hbuf]; rfl

/-- No register reads differently (R56). -/
@[simp] theorem State.readReg_observed (s : State) (r : Reg) : s.observed.readReg r = s.readReg r := by
  cases r <;> simp [State.readReg, State.observed]

/-- The decoder reads the same entries (R159). -/
@[simp] theorem pulseReader_observed (buf : Vector Cell 68) : pulseReader (buf.map Cell.observed) = pulseReader buf := by
  funext n
  cases h : buf[n]? <;> simp [pulseReader, h]

/-- Commands pass through observation. -/
theorem exec_observed (i : Instr) (s : State) : exec i s.observed = observedOutcome (exec i s) := by
  cases i with
  | compile =>
    simp only [exec, execCompile, State.observed_tempC, Cell.read_observed]
    cases s.tempC.read <;> simp [observedOutcome]
  | encode =>
    simp only [exec, execEncode, State.observed_packet, Cell.read_observed]
    cases s.packet.read <;> simp [observedOutcome]
  | decode =>
    simp only [exec, execDecode, State.observed_params, State.observed_pulse, State.observed_pulseLen,
      pulseReader_observed]
    cases decodeWith s.params.tol (pulseReader s.pulse) s.pulseLen.toNat with
    | ok p => simp [observedOutcome]
    | error x => cases x <;> simp [observedOutcome]

/-- A CMD write passes through observation. -/
theorem command_observed (w : Word) (s : State) : command w s.observed = observedOutcome (command w s) := by
  unfold command
  cases decodeWord w with
  | ok i => exact exec_observed i s
  | error _ => rfl

/-- A host read passes through observation. -/
theorem hostRead_observed (r : Reg) (s : State) : hostRead r s.observed = (hostRead r s).observed := by
  unfold hostRead
  rw [State.readReg_observed]
  cases s.readReg r <;> rfl

/-- A host write passes through observation. -/
theorem hostWrite_observed (r : Reg) (w : Word) (s : State) :
    hostWrite r w s.observed = observedOutcome (hostWrite r w s) := by
  cases r with
  | cmd => exact command_observed w s
  | pulse i => simp [hostWrite, observedOutcome]
  | _ => rfl

/-- A host access passes through observation. -/
theorem performAccess_observed (a : HostAccess) (s : State) :
    performAccess a s.observed = observedOutcome (performAccess a s) := by
  unfold performAccess
  rw [State.observed_params]
  cases a.target s.params.base with
  | none => rfl
  | some r =>
    cases a with
    | read _ _ => exact congrArg Host.Outcome.next (hostRead_observed r s)
    | write _ bytes => exact hostWrite_observed r (wordOfBytes bytes) s

/-- A step passes through observation: it is determined by what of the state can be observed. -/
theorem step_observed (s : State) : step s.observed = observedOutcome (step s) := by
  unfold step
  rw [State.observed_fault, State.observed_pending]
  cases s.fault with
  | some r => rfl
  | none =>
    cases s.pending with
    | nil => rfl
    | cons a rest => exact performAccess_observed a (s.setPending rest)

end Sys2Proof.Machine
end

section
/-! SUPPORT. Which register an access of the spec's form reaches, and what a step of it runs (R50, R56, R57). -/

namespace Sys2Proof.Machine

/-- The map finds every register at its own offset (R51). -/
@[simp] theorem Reg.ofOffset_offset (r : Reg) : Reg.ofOffset r.offset = some r := by
  cases r with
  | const c => cases c <;> rfl
  | pulse i =>
    have hi := i.isLt
    change Reg.ofOffset (0x100 + 4 * i.val) = _
    unfold Reg.ofOffset
    split
    case h_17 =>
      rw [dif_pos (by omega)]
      simp
    all_goals omega
  | _ => rfl

/-- A 4-byte access at a register's address reaches that register (R50 to R53). -/
theorem HostAccess.target_of_size_and_addr {base : Nat} {a : HostAccess} {r : Reg} (hs : a.size = 4)
    (ha : a.addr = base + r.offset) : a.target base = some r := by
  obtain ⟨hlt, hal⟩ := r.offset_lt_and_aligned
  have hform : a.formOk base = true := by simp [HostAccess.formOk, hs, ha, hlt, hal]
  rw [HostAccess.target, if_pos hform, ha, Nat.add_sub_cancel_left, Reg.ofOffset_offset]

/-- Bit k of a word made of byte lanes lies in lane 0 below bit 8, and in the lanes after it from there on (R54). -/
theorem wordOfBytes_cons_getLsbD (b : Byte) (bs : List Byte) {k : Nat} (hk : k < 32) :
    (wordOfBytes (b :: bs)).getLsbD k = if k < 8 then b.getLsbD k else (wordOfBytes bs).getLsbD (k - 8) := by
  simp only [wordOfBytes, BitVec.getLsbD_or, BitVec.getLsbD_shiftLeft, BitVec.getLsbD_setWidth, hk]
  by_cases h8 : k < 8
  · simp [h8]
  · simp [h8, BitVec.getLsbD_of_ge b k (by omega)]

/-- The four lanes of a word make the word again (R54). -/
@[simp] theorem wordOfBytes_bytesOfWord (w : Word) : wordOfBytes (bytesOfWord w) = w := by
  apply BitVec.eq_of_getLsbD_eq
  intro k hk
  have hlane : ∀ n, 8 * n ≤ k → k < 8 * n + 8 → (lane w n).getLsbD (k - 8 * n) = w.getLsbD k := by
    intro n hlo hhi
    rw [lane, BitVec.getLsbD_extractLsb', decide_eq_true (by omega), Bool.true_and, Nat.add_sub_cancel' hlo]
  rw [bytesOfWord, wordOfBytes_cons_getLsbD _ _ hk, wordOfBytes_cons_getLsbD _ _ (by omega),
    wordOfBytes_cons_getLsbD _ _ (by omega), wordOfBytes_cons_getLsbD _ _ (by omega), Nat.sub_sub, Nat.sub_sub]
  split_ifs
  · exact hlane 0 (by omega) (by omega)
  · exact hlane 1 (by omega) (by omega)
  · exact hlane 2 (by omega) (by omega)
  · exact hlane 3 (by omega) (by omega)
  · omega

/-- With FAULT clear a step performs the host's next access on the state whose accesses have moved past it. -/
theorem step_eq_performAccess {s : State} {a : HostAccess} {rest : List HostAccess} (h : s.Next a rest) :
    step s = performAccess a (s.setPending rest) := by
  obtain ⟨hf, hp⟩ := h
  simp [step, hf, hp]

/-- A step whose access is a read of `r` is that read. -/
theorem step_eq_hostRead {s : State} {r : Reg} {rest : List HostAccess}
    (h : s.Next (.read (s.params.base + r.offset) 4) rest) : step s = .next (hostRead r (s.setPending rest)) := by
  have ht : (HostAccess.read (s.params.base + r.offset) 4).target s.params.base = some r :=
    HostAccess.target_of_size_and_addr rfl rfl
  simp [step_eq_performAccess h, performAccess, ht]

/-- A step whose access is a 4-byte write of `r` is that write. -/
theorem step_eq_hostWrite {s : State} {r : Reg} {bytes : List Byte} {rest : List HostAccess}
    (h : s.Next (.write (s.params.base + r.offset) bytes) rest) (hl : bytes.length = 4) :
    step s = hostWrite r (wordOfBytes bytes) (s.setPending rest) := by
  have ht : (HostAccess.write (s.params.base + r.offset) bytes).target s.params.base = some r :=
    HostAccess.target_of_size_and_addr hl rfl
  simp [step_eq_performAccess h, performAccess, ht]

/-- A word that decodes runs its instruction. -/
theorem command_of_decodeWord {w : Word} {i : Instr} (h : decodeWord w = .ok i) (s : State) :
    command w s = exec i s := by
  simp [command, h]

/-- A CMD write by the word: the three commands, and every other word illegal (R71, R72). -/
theorem command_eq_ite (w : Word) (s : State) :
    command w s = if w = 1#32 then exec .compile s else if w = 2#32 then exec .encode s
      else if w = 3#32 then exec .decode s else .next (s.setResult .illegalCommand) := by
  unfold command decodeWord
  split_ifs <;> rfl

/-- Four bytes that decode to an instruction make a word that decodes to it. -/
theorem decodeWord_of_decodeBytes {bytes rest : List Byte} {i : Instr} (hl : bytes.length = 4)
    (h : decodeBytes bytes = .ok (i, rest)) : decodeWord (wordOfBytes bytes) = .ok i := by
  match bytes, hl with
  | [l0, l1, l2, l3], _ =>
    simp only [decodeBytes] at h
    split at h
    · cases h
      assumption
    · cases h

/-- The low `n` bits of a word, as the masked word. -/
theorem setWidth_extractLsb'_zero (w : Word) (n : Nat) :
    (w.extractLsb' 0 n).setWidth 32 = w &&& BitVec.ofNat 32 (2 ^ n - 1) := by
  apply BitVec.eq_of_getLsbD_eq
  intro k hk
  rw [BitVec.getLsbD_and, BitVec.getLsbD_ofNat, Nat.testBit_two_pow_sub_one]
  simp [hk, Bool.and_comm]

/-- The constant registers hold the words of R29's table. -/
theorem ConstReg.value_eq_specConst (c : ConstReg) : c.value = specConst c := by
  cases c <;> rfl

/-- A register reads by the list of R56. -/
theorem State.readReg_eq_specRead (s : State) (r : Reg) : s.readReg r = s.specRead r := by
  cases r with
  | status => exact congrArg some (setWidth_extractLsb'_zero s.status 3)
  | settings => exact congrArg some (setWidth_extractLsb'_zero s.settings 5)
  | const c => exact congrArg some c.value_eq_specConst
  | _ => rfl

end Sys2Proof.Machine
end

section
/-! SUPPORT. Which registers, flags and events a command or a host write can change. -/

namespace Sys2Proof.Machine

/-- No command writes SETTINGS or TEMP_C; only COMPILE and DECODE write PACKET, only ENCODE writes PULSE_LEN and PULSE
(R34). -/
theorem exec_registers {i : Instr} {s t : State} (h : exec i s = .next t) :
    t.settings = s.settings ∧ t.tempC = s.tempC ∧ (t.packet ≠ s.packet → i = .compile ∨ i = .decode) ∧
      (t.pulseLen ≠ s.pulseLen → i = .encode) ∧ (t.pulse ≠ s.pulse → i = .encode) := by
  cases i with
  | compile =>
    change execCompile s = _ at h
    obtain ⟨_, h'⟩ | ⟨_, h'⟩ := execCompile_cases s <;> rw [h'] at h <;> cases h <;> simp
  | encode =>
    change execEncode s = _ at h
    obtain ⟨_, h'⟩ | ⟨_, h'⟩ := execEncode_cases s <;> rw [h'] at h <;> cases h <;> simp
  | decode =>
    change execDecode s = _ at h
    obtain ⟨_, _, h'⟩ | ⟨_, _, h'⟩ | ⟨_, h'⟩ := execDecode_cases s <;> rw [h'] at h <;> cases h <;> simp

/-- A host write of a register other than CMD changes that register alone (R34, R57). -/
theorem hostWrite_registers {r : Reg} {w : Word} {s t : State} (hr : r ≠ .cmd) (h : hostWrite r w s = .next t) :
    t.status = s.status ∧ t.txLog = s.txLog ∧ (t.settings ≠ s.settings → r = .settings) ∧
      (t.tempC ≠ s.tempC → r = .tempC) ∧ (t.packet ≠ s.packet → r = .packet) ∧
      (t.pulseLen ≠ s.pulseLen → r = .pulseLen) ∧ ∀ i : Fin 68, t.pulse[i] ≠ s.pulse[i] → r = .pulse i := by
  cases r with
  | cmd => contradiction
  | pulse j =>
    cases h
    have hother : ∀ i : Fin 68, (s.writePulse j w).pulse[i] ≠ s.pulse[i] → j = i := fun i hi =>
      not_ne_iff.1 fun hji => hi (s.writePulse_other j i w hji)
    simpa using hother
  | _ =>
    cases h
    simp

/-- ENCODE of a written PACKET appends the event of its train, and nothing else touches TXLOG (R30, R136). -/
theorem exec_txLog {i : Instr} {s t : State} (h : exec i s = .next t) :
    t.txLog = s.txLog ∨ i = .encode ∧ s.packet.written = true ∧
      t.txLog = s.txLog ++ [{ carrierHz := carrierHz, train := encodeTrain (Packet.ofWord s.packet.word) }] := by
  cases i with
  | compile =>
    change execCompile s = _ at h
    obtain ⟨_, h'⟩ | ⟨_, h'⟩ := execCompile_cases s <;> rw [h'] at h <;> cases h <;> exact .inl rfl
  | encode =>
    change execEncode s = _ at h
    obtain ⟨_, h'⟩ | ⟨hw, h'⟩ := execEncode_cases s <;> rw [h'] at h <;> cases h
    · exact .inl rfl
    · exact .inr ⟨rfl, hw, rfl⟩
  | decode =>
    change execDecode s = _ at h
    obtain ⟨_, _, h'⟩ | ⟨_, _, h'⟩ | ⟨_, h'⟩ := execDecode_cases s <;> rw [h'] at h <;> cases h <;> exact .inl rfl

/-- Every cell that was written is written still. -/
def State.KeepsFlags (s t : State) : Prop :=
  (s.tempC.written = true → t.tempC.written = true) ∧ (s.packet.written = true → t.packet.written = true) ∧
    ∀ i : Fin 68, s.pulse[i].written = true → t.pulse[i].written = true

/-- Flags are kept where the cells are. -/
theorem State.KeepsFlags.of_eq {s t : State} (ht : t.tempC = s.tempC) (hp : t.packet = s.packet)
    (hb : t.pulse = s.pulse) : s.KeepsFlags t := by
  simp [State.KeepsFlags, ht, hp, hb]

/-- No command clears a flag (R40). -/
theorem exec_keepsFlags {i : Instr} {s t : State} (h : exec i s = .next t) : s.KeepsFlags t := by
  obtain rfl | ⟨_, _, rfl⟩ | ⟨_, rfl⟩ | ⟨_, rfl⟩ | ⟨_, rfl⟩ := exec_forms h
  · exact .of_eq rfl rfl rfl
  · exact ⟨id, fun _ => rfl, fun _ => id⟩
  · exact ⟨id, id, fun i _ => by simp⟩
  · exact ⟨id, fun _ => rfl, fun _ => id⟩
  · exact .of_eq rfl rfl rfl

/-- No host write of a register other than CMD clears a flag (R40). -/
theorem hostWrite_keepsFlags {r : Reg} {w : Word} {s t : State} (hr : r ≠ .cmd) (h : hostWrite r w s = .next t) :
    s.KeepsFlags t := by
  cases r with
  | cmd => contradiction
  | tempC => cases h; exact ⟨fun _ => rfl, id, fun _ => id⟩
  | packet => cases h; exact ⟨id, fun _ => rfl, fun _ => id⟩
  | pulse j =>
    cases h
    refine ⟨id, id, fun i hi => ?_⟩
    obtain rfl | hji := eq_or_ne j i
    · rw [State.writePulse_self, Cell.holding_written]
    · rwa [State.writePulse_other _ _ _ _ hji]
  | _ => cases h; exact .of_eq rfl rfl rfl

end Sys2Proof.Machine
end

section
/-! SUPPORT. The train of a packet word by the layout of R81. -/

namespace Sys2Proof.Machine

/-- The cells of a packet byte are those of its eight bits of the word (R79, R82). -/
theorem byteCells_extractLsb' (w : Word) (start : Nat) :
    byteCells (w.extractLsb' start 8) = (List.range 8).flatMap fun j => bitCell (w.getLsbD (start + j)) := by
  refine List.flatMap_congr fun j hj => ?_
  rw [BitVec.getLsbD_extractLsb', decide_eq_true (List.mem_range.1 hj), Bool.true_and]

/-- ENCODE's train of a packet word has the layout of R81. -/
theorem encodeTrain_ofWord (w : Word) : encodeTrain (Packet.ofWord w) = specTrain w := by
  simp only [encodeTrain, Packet.bytes, Packet.ofWord, List.flatMap_cons, List.flatMap_nil, byteCells_extractLsb']
  rfl

end Sys2Proof.Machine
end

section
/-! SUPPORT. The decoder's checks by position: each of the 68 positions has one check, the decoder performs them in
index order, and the first that does not pass decides its answer (R150, R158). -/

namespace Sys2Proof.Machine

/-- The error that a failed check of position `n` reports (R152 to R154, R156). -/
def positionError (n : Nat) : DecodeError :=
  if n < 2 then .invalidLeadIn else if n < 66 then .ambiguousBit else .invalidTrailer

/-- The check of position `n`: its entry is read, and must pass as `PositionPasses` says. -/
def checkPosition (tol : ℚ) (read : PulseReader) (n : Nat) : Except DecodeStop Unit :=
  match read n with
  | .error x => .error x
  | .ok e => if PositionPasses tol n e then .ok () else .error (.err (positionError n))

/-- The check of an entry that passes. -/
theorem checkPosition_of_passes {tol : ℚ} {read : PulseReader} {n : Nat} {e : PulseEntry} (hr : read n = .ok e)
    (hp : PositionPasses tol n e) : checkPosition tol read n = .ok () := by
  simp only [checkPosition, hr, if_pos hp]

/-- The check of an entry that cannot be read. -/
theorem checkPosition_of_read_error {tol : ℚ} {read : PulseReader} {n : Nat} {x : DecodeStop}
    (hr : read n = .error x) : checkPosition tol read n = .error x := by
  simp only [checkPosition, hr]

/-- Where R152, R153 or R156 asks for a kind and a duration, the decoder's check is that of the position. -/
theorem expectEntry_eq_checkPosition {tol : ℚ} {n nom : Nat} {kind : PulseKind} (read : PulseReader)
    (h : ∀ e, PositionPasses tol n e ↔ e.kind = kind ∧ InWindow tol e.dur nom) :
    expectEntry tol read n kind nom (positionError n) = checkPosition tol read n := by
  unfold expectEntry checkPosition
  cases read n with
  | error x => rfl
  | ok e => simp only [h, within_iff_inWindow]

/-- The lead-in is the checks of positions 0 and 1 (R152). -/
theorem checkLeadIn_eq (tol : ℚ) (read : PulseReader) :
    checkLeadIn tol read = (checkPosition tol read 0).bind fun _ => checkPosition tol read 1 := by
  have h0 : expectEntry tol read 0 .mark leadMarkUs .invalidLeadIn = checkPosition tol read 0 :=
    expectEntry_eq_checkPosition read fun e => by simp [PositionPasses, leadMarkUs]
  have h1 : expectEntry tol read 1 .space leadSpaceUs .invalidLeadIn = checkPosition tol read 1 :=
    expectEntry_eq_checkPosition read fun e => by simp [PositionPasses, leadSpaceUs]
  rw [checkLeadIn, h0, h1]
  cases checkPosition tol read 0 <;> rfl

/-- The trailer is the checks of positions 66 and 67 (R156). -/
theorem checkTrailer_eq (tol : ℚ) (read : PulseReader) :
    checkTrailer tol read = (checkPosition tol read 66).bind fun _ => checkPosition tol read 67 := by
  have h66 : expectEntry tol read 66 .mark bitMarkUs .invalidTrailer = checkPosition tol read 66 :=
    expectEntry_eq_checkPosition read fun e => by simp [PositionPasses, bitMarkUs]
  have h67 : expectEntry tol read 67 .space stopSpaceUs .invalidTrailer = checkPosition tol read 67 :=
    expectEntry_eq_checkPosition read fun e => by simp [PositionPasses, stopSpaceUs]
  rw [checkTrailer, h66, h67]
  cases checkPosition tol read 66 <;> rfl

/-- A space inside either window and nearer to one nominal is that bit; every other is ambiguous (R154). -/
theorem classify_eq_ite (tol : ℚ) (d : Nat) :
    classify tol d =
      if (InWindow tol d 550 ∨ InWindow tol d 1550) ∧ (NearerShort d ∨ NearerLong d) then
        .ok (decide (NearerShort d))
      else .error (.err .ambiguousBit) := by
  have hshort : distance d shortSpaceUs < distance d longSpaceUs ↔ NearerShort d := by
    rw [nearerShort_iff, distance, distance, shortSpaceUs, longSpaceUs]
    omega
  have hlong : distance d longSpaceUs < distance d shortSpaceUs ↔ NearerLong d := by
    rw [nearerLong_iff, distance, distance, shortSpaceUs, longSpaceUs]
    omega
  have hout : (!within tol d shortSpaceUs && !within tol d longSpaceUs) = true ↔
      ¬(InWindow tol d 550 ∨ InWindow tol d 1550) := by
    simp [← within_iff_inWindow, shortSpaceUs, longSpaceUs]
  simp only [classify, hshort, hlong, hout]
  by_cases hw : InWindow tol d 550 ∨ InWindow tol d 1550
  · rw [if_neg (not_not.2 hw)]
    by_cases hs : NearerShort d
    · rw [if_pos hs, if_pos ⟨hw, .inl hs⟩, decide_eq_true hs]
    rw [if_neg hs]
    by_cases hl : NearerLong d
    · rw [if_pos hl, if_pos ⟨hw, .inr hl⟩, decide_eq_false hs]
    · rw [if_neg hl, if_neg fun h => h.2.elim hs hl]
  · rw [if_pos hw, if_neg fun h => hw h.1]

/-- Bit cell `k` is the checks of its two positions, and its bit is whether its space is nearer to the short one
(R153, R154). -/
theorem decodeCell_eq {tol : ℚ} {k : Nat} (read : PulseReader) (hk : k < 32) :
    decodeCell tol read k = (checkPosition tol read (2 + 2 * k)).bind fun _ =>
      (checkPosition tol read (3 + 2 * k)).bind fun _ =>
        (read (3 + 2 * k)).map fun e => decide (NearerShort e.dur) := by
  have herr : ∀ n, 2 ≤ n → n < 66 → positionError n = .ambiguousBit := fun n h2 h66 => by
    simp [positionError, h66, Nat.not_lt.2 h2]
  have hmark : expectEntry tol read (2 + 2 * k) .mark bitMarkUs .ambiguousBit = checkPosition tol read (2 + 2 * k) := by
    rw [← herr (2 + 2 * k) (by omega) (by omega)]
    refine expectEntry_eq_checkPosition read fun e => ?_
    rw [PositionPasses, if_neg (by omega), if_neg (by omega), if_pos (by omega)]
    rfl
  have hspace : ∀ e, PositionPasses tol (3 + 2 * k) e ↔ e.kind = .space ∧
      (InWindow tol e.dur 550 ∨ InWindow tol e.dur 1550) ∧ (NearerShort e.dur ∨ NearerLong e.dur) := fun e => by
    rw [PositionPasses, if_neg (by omega), if_neg (by omega), if_neg (by omega)]
  rw [decodeCell, hmark]
  cases checkPosition tol read (2 + 2 * k) with
  | error x => rfl
  | ok _ =>
    cases hr : read (3 + 2 * k) with
    | error x => simp [checkPosition, hr, Except.bind]
    | ok e =>
      by_cases hp : PositionPasses tol (3 + 2 * k) e
      · obtain ⟨hkind, hbit⟩ := (hspace e).1 hp
        simp only [checkPosition_of_passes hr hp, if_pos hkind, classify_eq_ite, if_pos hbit]
        rfl
      · simp only [checkPosition, hr, if_neg hp, herr (3 + 2 * k) (by omega) (by omega), classify_eq_ite]
        by_cases hkind : e.kind = .space
        · rw [if_pos hkind, if_neg fun hbit => hp ((hspace e).2 ⟨hkind, hbit⟩)]
          rfl
        · rw [if_neg hkind]
          rfl

/-- A bit cell whose two checks pass is read as a bit. -/
theorem decodeCell_of_passes {tol : ℚ} {read : PulseReader} {k : Nat} (hk : k < 32)
    (hm : checkPosition tol read (2 + 2 * k) = .ok ()) (hs : checkPosition tol read (3 + 2 * k) = .ok ()) :
    ∃ e, read (3 + 2 * k) = .ok e ∧ decodeCell tol read k = .ok (decide (NearerShort e.dur)) := by
  rw [decodeCell_eq read hk, hm, hs]
  cases hr : read (3 + 2 * k) with
  | error x => simp [checkPosition, hr] at hs
  | ok e => exact ⟨e, rfl, rfl⟩

/-- Bit cells whose checks all pass are read as bits. -/
theorem decodeCells_of_passes {tol : ℚ} {read : PulseReader} (todo k : Nat) (p : Packet) (hk : k + todo ≤ 32)
    (h : ∀ m, 2 + 2 * k ≤ m → m < 2 + 2 * (k + todo) → checkPosition tol read m = .ok ()) :
    ∃ q, decodeCells tol read todo k p = .ok q := by
  induction todo generalizing k p with
  | zero => exact ⟨p, rfl⟩
  | succ todo ih =>
    obtain ⟨e, _, hc⟩ := decodeCell_of_passes (by omega) (h (2 + 2 * k) (by omega) (by omega))
      (h (3 + 2 * k) (by omega) (by omega))
    rw [decodeCells, hc]
    exact ih (k + 1) _ (by omega) fun m hlo hhi => h m (by omega) (by omega)

/-- Of the bit cells' checks the first that does not pass decides. -/
theorem decodeCells_of_first_stop {tol : ℚ} {read : PulseReader} {n : Nat} {x : DecodeStop} (todo k : Nat)
    (p : Packet) (hk : k + todo ≤ 32) (hlo : 2 + 2 * k ≤ n) (hhi : n < 2 + 2 * (k + todo))
    (h : ∀ m, 2 + 2 * k ≤ m → m < n → checkPosition tol read m = .ok ()) (hx : checkPosition tol read n = .error x) :
    decodeCells tol read todo k p = .error x := by
  induction todo generalizing k p with
  | zero => omega
  | succ todo ih =>
    rw [decodeCells]
    obtain rfl | hn := eq_or_lt_of_le hlo
    · rw [decodeCell_eq read (by omega), hx]
      rfl
    have hm := h (2 + 2 * k) le_rfl hn
    obtain rfl | hn' := eq_or_lt_of_le (show 3 + 2 * k ≤ n by omega)
    · rw [decodeCell_eq read (by omega), hm, hx]
      rfl
    obtain ⟨e, _, hc⟩ := decodeCell_of_passes (by omega) hm (h (3 + 2 * k) (by omega) hn')
    rw [hc]
    exact ih (k + 1) _ (by omega) (by omega) (by omega) fun m hlo' hhi' => h m (by omega) hhi'

/-- With all 68 entries there, the first check that does not pass decides the decoder's answer (R150, R158). -/
theorem decodeWith_of_first_stop {tol : ℚ} {read : PulseReader} {n : Nat} {x : DecodeStop} (hn : n < 68)
    (h : ∀ m, m < n → checkPosition tol read m = .ok ()) (hx : checkPosition tol read n = .error x) :
    decodeWith tol read 68 = .error x := by
  rw [decodeWith, if_neg (by decide), checkLeadIn_eq]
  obtain rfl | h0 := Nat.eq_zero_or_pos n
  · rw [hx]
    rfl
  rw [h 0 h0]
  obtain rfl | h1 := eq_or_lt_of_le (Nat.succ_le_of_lt h0)
  · simp [Except.bind, hx]
  simp only [Except.bind, h 1 h1]
  obtain hcell | htrail := Nat.lt_or_ge n 66
  · rw [decodeCells_of_first_stop (8 * pktLen) 0 Packet.zero le_rfl h1 hcell (fun m _ => h m) hx]
  obtain ⟨q, hq⟩ := decodeCells_of_passes (tol := tol) (read := read) (8 * pktLen) 0 Packet.zero le_rfl
    fun m _ hm => h m (Nat.lt_of_lt_of_le hm htrail)
  rw [hq, checkTrailer_eq]
  obtain rfl | h66 := eq_or_lt_of_le htrail
  · simp [Except.bind, hx]
  obtain rfl : n = 67 := by omega
  simp [Except.bind, h 66 h66, hx]

/-- A PULSE word holds KIND in bit 31 and DUR in the bits below (R80). -/
theorem PulseEntry.ofWord_eq (w : Word) :
    PulseEntry.ofWord w = { kind := if w.getLsbD 31 then .mark else .space, dur := w.toNat % 2 ^ 31 } := by
  simp [PulseEntry.ofWord, BitVec.extractLsb'_toNat]

/-- The buffer's reader gives the entries that were written, and stops at every other (R41, R159). -/
theorem pulseReader_eq_entryAt (buf : Vector Cell 68) (n : Nat) :
    pulseReader buf n = (entryAt buf n).elim (.error .uninit) .ok := by
  unfold pulseReader entryAt
  cases buf[n]? with
  | none => rfl
  | some c => cases hw : c.written <;> simp [Cell.read, hw, PulseEntry.ofWord_eq]

/-- With PULSE_LEN = 68, DECODE of a buffer stops at the first position that does not pass (R150, R159). -/
theorem decodeWith_pulseReader_of_first_stop {tol : ℚ} {buf : Vector Cell 68} {n : Nat} {x : DecodeStop}
    (hn : n < 68) (h : PassesBefore tol buf n) (hx : checkPosition tol (pulseReader buf) n = .error x) :
    decodeWith tol (pulseReader buf) 68 = .error x := by
  refine decodeWith_of_first_stop hn (fun m hm => ?_) hx
  obtain ⟨e, he, hp⟩ := h m hm
  refine checkPosition_of_passes ?_ hp
  rw [pulseReader_eq_entryAt, he]
  rfl

end Sys2Proof.Machine
end

section
/-! CERTIFICATES. The statements of 10_state.md, settled. -/

namespace Sys2Proof.Machine

/-- Settles O49: the step of a state is observed as the step of its observed part. -/
theorem unwrittenWordsAreNeverSeen : Obligations.UnwrittenWordsAreNeverSeen := by
  intro s t h
  rw [← step_observed, ← step_observed, h]

/-- Settles O9: a command or an access keeps FAULT as it is, or sets it. -/
theorem faultMarkIsNeverCleared : Obligations.FaultMarkIsNeverCleared := by
  refine ⟨fun i s t h hs => ?_, fun a s t h hs => ?_⟩
  · obtain hkeep | rfl := exec_fault h
    · rwa [hkeep]
    · simp
  · obtain hkeep | ⟨r, rfl⟩ := performAccess_fault h
    · rwa [hkeep]
    · simp

/-- Settles O15: the access reaches the register, which reads by R56's list. -/
theorem hostReadReturnsTheRegister : Obligations.HostReadReturnsTheRegister := by
  intro s r rest h
  have hread : (s.setPending rest).readReg r = s.specRead r := s.readReg_eq_specRead r
  rw [step_eq_hostRead h, hostRead, hread]
  cases s.specRead r <;> rfl

/-- Settles O16: the access reaches the register with the word its four lanes make. -/
theorem hostWriteDoesWhatTheTableSays : Obligations.HostWriteDoesWhatTheTableSays := by
  intro s r w rest h
  rw [step_eq_hostWrite h rfl, wordOfBytes_bytesOfWord]
  cases r with
  | cmd => exact command_eq_ite w _
  | settings =>
    simp only [hostWrite, State.writeSettings, setWidth_extractLsb'_zero]
    rfl
  | _ => rfl

/-- Settles O18, by the forms a step can have. -/
theorem registersChangeOnlyAsTheSummarySays : Obligations.RegistersChangeOnlyAsTheSummarySays := by
  intro s t h
  obtain rfl | ⟨_, _, rfl⟩ | ⟨_, _, rfl⟩ | ⟨rest, i, hn, he⟩ | ⟨rest, bytes, hn, rfl⟩ | ⟨rest, bytes, r, hr, hn, hw⟩ :=
    step_forms h
  · simp
  · simp
  · simp
  · obtain ⟨hset, htmp, hpkt, hlen, hpulse⟩ := exec_registers he
    have hruns : ∀ i', i = i' → ∃ rest, s.Next (.write (s.params.base + 0x000) (encodeBytes i')) rest := by
      rintro _ rfl
      exact ⟨rest, hn⟩
    refine ⟨(absurd hset ·), (absurd htmp ·), fun hne => .inr ((hpkt hne).imp (hruns _) (hruns _)),
      fun hne => .inr (hruns _ (hlen hne)), fun j hne => .inr (hruns _ (hpulse ?_)), fun _ => ⟨_, _, hn⟩⟩
    exact fun heq => hne (congrArg (·[j]) heq)
  · exact ⟨(absurd rfl ·), (absurd rfl ·), (absurd rfl ·), (absurd rfl ·), fun _ => (absurd rfl ·), fun _ => ⟨_, _, hn⟩⟩
  · obtain ⟨hst, _, hset, htmp, hpkt, hlen, hpulse⟩ := hostWrite_registers hr hw
    have hwrites : ∀ r', r = r' → ∃ bytes rest, s.Next (.write (s.params.base + r'.offset) bytes) rest := by
      rintro _ rfl
      exact ⟨bytes, rest, hn⟩
    exact ⟨fun hne => hwrites _ (hset hne), fun hne => hwrites _ (htmp hne), fun hne => .inl (hwrites _ (hpkt hne)),
      fun hne => .inl (hwrites _ (hlen hne)), fun j hne => .inl (hwrites _ (hpulse j hne)), (absurd hst ·)⟩

/-- Settles O19, by the forms a step can have. -/
theorem writtenFlagsAreNeverCleared : Obligations.WrittenFlagsAreNeverCleared := by
  intro s t h
  obtain rfl | ⟨_, _, rfl⟩ | ⟨_, _, rfl⟩ | ⟨_, _, _, he⟩ | ⟨_, _, _, rfl⟩ | ⟨_, _, _, hr, _, hw⟩ := step_forms h
  · exact State.KeepsFlags.of_eq rfl rfl rfl
  · exact State.KeepsFlags.of_eq rfl rfl rfl
  · exact State.KeepsFlags.of_eq rfl rfl rfl
  · exact (exec_keepsFlags he :)
  · exact State.KeepsFlags.of_eq rfl rfl rfl
  · exact (hostWrite_keepsFlags hr hw :)

/-- Settles O34: of the forms a step can have, an ENCODE alone appends an event. -/
theorem onlyEncodeTransmits : Obligations.OnlyEncodeTransmits := by
  intro s t h
  obtain rfl | ⟨_, _, rfl⟩ | ⟨_, _, rfl⟩ | ⟨rest, i, hn, he⟩ | ⟨_, _, _, rfl⟩ | ⟨_, _, _, hr, _, hw⟩ := step_forms h
  · exact .inl rfl
  · exact .inl rfl
  · exact .inl rfl
  · obtain hsame | ⟨rfl, hwritten, hlog⟩ := exec_txLog he
    · exact .inl hsame
    · rw [encodeTrain_ofWord] at hlog
      exact .inr ⟨⟨rest, hn⟩, hwritten, hlog⟩
  · exact .inl rfl
  · obtain ⟨_, hlog, _⟩ := hostWrite_registers hr hw
    exact .inl hlog

/-- Settles O40: an entry that cannot be read is the first position that does not pass. -/
theorem decodeFaultsAtAnUnwrittenEntry : Obligations.DecodeFaultsAtAnUnwrittenEntry := by
  intro s n hlen hn hbefore hnone
  have hread : pulseReader s.pulse n = .error .uninit := by
    rw [pulseReader_eq_entryAt, hnone]
    rfl
  have hstop : decodeWith s.params.tol (pulseReader s.pulse) s.pulseLen.toNat = .error .uninit := by
    rw [hlen]
    exact decodeWith_pulseReader_of_first_stop hn hbefore (checkPosition_of_read_error hread)
  change execDecode s = _
  rw [execDecode, hstop]
  rfl

/-- Settles O43, by what a command can answer. -/
theorem errorResultsWriteOnlyStatus : Obligations.ErrorResultsWriteOnlyStatus := by
  intro w s t h
  obtain ⟨i, _, _, h'⟩ | ⟨_, h'⟩ := command_cases w s <;> rw [h'] at h
  · obtain rfl | ⟨_, _, rfl⟩ | ⟨_, rfl⟩ | ⟨_, rfl⟩ | ⟨_, rfl⟩ := exec_forms h
    · exact .inr (.inr rfl)
    · exact .inl ⟨rfl, rfl⟩
    · exact .inl ⟨rfl, rfl⟩
    · exact .inl ⟨rfl, rfl⟩
    · exact .inr (.inl rfl)
  · cases h
    exact .inr (.inl rfl)

/-- Settles O4: four bytes written to CMD are the command word they decode from. -/
theorem stepRunsTheDecodedInstruction : Obligations.StepRunsTheDecodedInstruction := by
  intro s i bytes rest hn hl hd
  calc step s = command (wordOfBytes bytes) (s.setPending rest) := step_eq_hostWrite (r := .cmd) hn hl
    _ = exec i (s.setPending rest) := command_of_decodeWord (decodeWord_of_decodeBytes hl hd) _

/-- Settles O5: the placed access is a CMD write of the table's word, and taking it off the list gives the state
back. -/
theorem placedTableWordRuns : Obligations.PlacedTableWordRuns := by
  intro s w i hf hd
  have hword : decodeWord (wordOfBytes (bytesOfWord (tableWord 32 w))) = .ok i := by
    unfold decodeTableWord at hd
    split at hd
    · cases hd
      exact decodeWord_of_decodeBytes rfl ‹_›
    · cases hd
  have hn : (s.withFetchWord 32 w).Next (commandAccess s.params.base (tableWord 32 w)) s.pending := ⟨hf, rfl⟩
  calc step (s.withFetchWord 32 w)
      = command (wordOfBytes (bytesOfWord (tableWord 32 w))) s := step_eq_hostWrite (r := .cmd) hn rfl
    _ = exec i s := command_of_decodeWord hword s

/-- Settles O7, by the step of a faulted state. -/
theorem faultedStateStops : Obligations.FaultedStateStops := fun _ _ h => step_of_fault h

/-- Settles O17: R29's table holds register by register. -/
theorem constantRegistersAreFixed : Obligations.ConstantRegistersAreFixed :=
  fun _ c => ⟨by cases c <;> rfl, congrArg some c.value_eq_specConst, fun _ => rfl⟩

/-- Settles O28, by the two commands' cases. -/
theorem unwrittenOperandFaults : Obligations.UnwrittenOperandFaults := by
  refine ⟨fun s h => ?_, fun s h => ?_⟩
  · obtain ⟨_, he⟩ | ⟨hw, _⟩ := execCompile_cases s
    · exact he
    · simp [h] at hw
  · obtain ⟨_, he⟩ | ⟨hw, _⟩ := execEncode_cases s
    · exact he
    · simp [h] at hw

end Sys2Proof.Machine
end

section
/-! SUPPORT. The offsets R51 maps, the accesses that reach a register, and what an access does to FAULT (R50 to R55). -/

namespace Sys2Proof.Machine

/-- The map and the table of offsets are inverse to each other (R51). -/
theorem Reg.ofOffset_eq_some_iff {off : Nat} {r : Reg} : Reg.ofOffset off = some r ↔ r.offset = off := by
  refine ⟨Reg.offset_of_ofOffset, ?_⟩
  rintro rfl
  exact Reg.ofOffset_offset r

/-- The mapped offsets: the words of the register block and those of the PULSE buffer (R51). -/
theorem Reg.exists_offset_eq_iff {off : Nat} :
    (∃ r : Reg, r.offset = off) ↔ off % 4 = 0 ∧ (off < 0x40 ∨ (0x100 ≤ off ∧ off < 0x210)) := by
  constructor
  · rintro ⟨r, rfl⟩
    cases r with
    | const c => cases c <;> simp [Reg.offset, ConstReg.offset]
    | pulse i =>
      have hi := i.isLt
      simp only [Reg.offset]
      omega
    | _ => simp [Reg.offset]
  · rintro ⟨hal, hlow | ⟨hlo, hhi⟩⟩
    · have hmapped : ∀ n < 0x40, n % 4 = 0 → (Reg.ofOffset n).isSome := by decide
      obtain ⟨r, hr⟩ := Option.isSome_iff_exists.mp (hmapped off hlow hal)
      exact ⟨r, Reg.offset_of_ofOffset hr⟩
    · refine ⟨.pulse ⟨(off - 0x100) / 4, by omega⟩, ?_⟩
      simp only [Reg.offset]
      omega

/-- An access of the spec's form is one that reaches a register (R50 to R53). -/
theorem goodAccess_iff_exists_target {base : Nat} {a : HostAccess} :
    GoodAccess base a ↔ ∃ r, a.target base = some r := by
  constructor
  · rintro ⟨hsize, hbase, hmapped⟩
    obtain ⟨r, hr⟩ := Reg.exists_offset_eq_iff.2 hmapped
    exact ⟨r, HostAccess.target_of_size_and_addr hsize (by omega)⟩
  · rintro ⟨r, hr⟩
    obtain ⟨hsize, haddr⟩ := HostAccess.size_and_addr_of_target hr
    have hoff : a.addr - base = r.offset := by omega
    exact ⟨hsize, by omega, hoff ▸ Reg.exists_offset_eq_iff.1 ⟨r, rfl⟩⟩

/-- An access of any other form sets FAULT = BadAccess and does nothing else (R55). -/
theorem performAccess_of_not_goodAccess {a : HostAccess} {s : State} (h : ¬GoodAccess s.params.base a) :
    performAccess a s = .next (s.raise .badAccess) := by
  have hnone : a.target s.params.base = none :=
    Option.eq_none_iff_forall_ne_some.mpr fun r hr => h (goodAccess_iff_exists_target.2 ⟨r, hr⟩)
  simp [performAccess, hnone]

/-- A host read keeps FAULT or sets UninitRead (R56). -/
theorem hostRead_fault (r : Reg) (s : State) :
    (hostRead r s).fault = s.fault ∨ (hostRead r s).fault = some .uninitRead := by
  obtain ⟨_, _, h⟩ | ⟨_, h⟩ := hostRead_cases r s <;> rw [h]
  · exact .inl rfl
  · exact .inr rfl

/-- A host write keeps FAULT, or sets UninitRead by the command it starts (R41, R57). -/
theorem hostWrite_fault_eq_or_uninitRead {r : Reg} {w : Word} {s t : State} (h : hostWrite r w s = .next t) :
    t.fault = s.fault ∨ t.fault = some .uninitRead := by
  cases r with
  | cmd =>
    change command w s = _ at h
    obtain ⟨i, _, _, hc⟩ | ⟨_, hc⟩ := command_cases w s <;> rw [hc] at h
    · exact (exec_fault h).imp_right (congrArg State.fault)
    · cases h
      exact .inl rfl
  | _ =>
    cases h
    exact .inl rfl

/-- An access that reaches a register keeps FAULT or sets UninitRead, never BadAccess (R55 to R57). -/
theorem performAccess_fault_of_goodAccess {a : HostAccess} {s t : State} (hg : GoodAccess s.params.base a)
    (h : performAccess a s = .next t) : t.fault = s.fault ∨ t.fault = some .uninitRead := by
  obtain ⟨r, hr⟩ := goodAccess_iff_exists_target.1 hg
  obtain ⟨hnone, _⟩ | ⟨r', _, _, _, _, hp⟩ | ⟨_, _, _, _, _, hp⟩ := performAccess_cases a s
  · simp [hnone] at hr
  · rw [hp] at h
    cases h
    exact hostRead_fault r' s
  · exact hostWrite_fault_eq_or_uninitRead (hp ▸ h)

end Sys2Proof.Machine
end

section
/-! CERTIFICATES. The statements of 20_memory.md, settled. -/

namespace Sys2Proof.Machine

/-- Settles O11: the table register by register, and the map as its inverse. -/
theorem registerMapIsTheTable : Obligations.RegisterMapIsTheTable := by
  refine ⟨fun r => ?_, fun _ _ => Reg.ofOffset_eq_some_iff⟩
  cases r with
  | const c => cases c <;> rfl
  | _ => rfl

/-- Settles O13: each of the three ways is an access not of the spec's form. -/
theorem badAccessFaults : Obligations.BadAccessFaults := by
  intro s a rest off hn haddr _ hbad
  have hoff : a.addr - s.params.base = off := by omega
  have hg : ¬GoodAccess s.params.base a := by
    rintro ⟨hsize, _, hal, hmapped⟩
    rw [hoff] at hal hmapped
    obtain h | h | h := hbad
    · exact h hsize
    · exact h hal
    · exact h hmapped
  exact (step_eq_performAccess hn).trans (performAccess_of_not_goodAccess hg)

/-- Settles O14: what an access does to FAULT, by its form. -/
theorem onlyBadAccessesAreBadAccess : Obligations.OnlyBadAccessesAreBadAccess := by
  intro s t a rest hn ht
  rw [step_eq_performAccess hn] at ht
  obtain ⟨hclear, _⟩ := hn
  by_cases hg : GoodAccess s.params.base a
  · obtain hkeep | hset := performAccess_fault_of_goodAccess (s := s.setPending rest) hg ht
    · simp [hkeep, hclear, hg]
    · simp [hset, hg]
  · rw [performAccess_of_not_goodAccess (s := s.setPending rest) hg] at ht
    cases ht
    simp [hg]

/-- Settles O1: the decoder evaluated on the words and bytes of R71's table, and on one illegal word. -/
theorem commandWordsDecode : Obligations.CommandWordsDecode := by
  unfold Obligations.CommandWordsDecode
  decide

/-- Settles O12: the lanes are the packet's bytes by definition, and the word comes back bit by bit. -/
theorem byteLanesAreLittleEndian : Obligations.ByteLanesAreLittleEndian :=
  fun w => ⟨rfl, wordOfBytes_bytesOfWord w, rfl⟩

end Sys2Proof.Machine
end

section
/-! SUPPORT. The words of the formats and their fields: the command (R70, R71), the packet (R79, R81), the pulse entry
(R80), the encoded train (R81, R135), and the words of SET, MARK and SPACE (R74, R86). -/

namespace Sys2Proof.Machine

/-- The statement made per instruction holds of all three (R70, R71). -/
theorem commandWord_statement (i : Instr) : Laws.CommandWord.Statement i := by
  cases i with
  | compile => exact Laws.CommandWord.compile
  | encode => exact Laws.CommandWord.encode
  | decode => exact Laws.CommandWord.decode

/-- The decoder takes a command word to its command (R71). -/
@[simp] theorem decodeWord_encode (i : Instr) : decodeWord (encode i) = .ok i := by
  cases i <;> rfl

/-- The packet word is the four bytes side by side, byte 3 first (R79). -/
theorem Packet.toWord_eq_append (p : Packet) :
    p.toWord = (p.b3 ++ p.b2 ++ p.b1 ++ p.b0 : BitVec (8 + 8 + 8 + 8)) := by
  refine BitVec.eq_of_getLsbD_eq fun k hk => ?_
  have h16 : k - 8 < 8 ↔ k < 16 := by omega
  have h24 : k - 16 < 8 ↔ k < 24 := by omega
  simp only [Packet.toWord_getLsbD p hk, BitVec.getLsbD_append, Nat.sub_sub, h16, h24]

/-- The packet word is the bytes weighted by their places (R79). -/
theorem Packet.toWord_toNat (p : Packet) :
    p.toWord.toNat = p.b3.toNat * 2 ^ 24 + p.b2.toNat * 2 ^ 16 + p.b1.toNat * 2 ^ 8 + p.b0.toNat := by
  simp only [Packet.toWord_eq_append, BitVec.toNat_append]
  rw [← Nat.shiftLeft_add_eq_or_of_lt p.b2.isLt, ← Nat.shiftLeft_add_eq_or_of_lt p.b1.isLt,
    ← Nat.shiftLeft_add_eq_or_of_lt p.b0.isLt]
  simp only [Nat.shiftLeft_eq]
  omega

/-- The bytes are read back from the word they make (R79). -/
@[simp] theorem Packet.ofWord_toWord (p : Packet) : Packet.ofWord p.toWord = p := by
  have hw := p.toWord_toNat
  obtain ⟨b0, b1, b2, b3⟩ := p
  have h0 := b0.isLt
  have h1 := b1.isLt
  have h2 := b2.isLt
  simp only [Packet.ofWord, Packet.mk.injEq, ← BitVec.toNat_inj, BitVec.extractLsb'_toNat, hw,
    Nat.shiftRight_eq_div_pow]
  omega

/-- A word is made again from its bytes (R79). -/
@[simp] theorem Packet.toWord_ofWord (w : Word) : (Packet.ofWord w).toWord = w := by
  have hlt := w.isLt
  rw [← BitVec.toNat_inj, Packet.toWord_toNat]
  simp only [Packet.ofWord, BitVec.extractLsb'_toNat, Nat.shiftRight_eq_div_pow]
  omega

/-- Bit k of the word is bit k mod 8 of packet byte k div 8 (R79, R81). -/
theorem Packet.bytes_getLsbD (p : Packet) {k : Nat} (hk : k < 32) :
    (p.bytes[k / 8]?).map (fun b => b.getLsbD (k % 8)) = some (p.toWord.getLsbD k) := by
  have hmod : k % 8 = k - 8 * (k / 8) := by omega
  have hdiv : k / 8 < 4 := by omega
  rw [p.toWord_getLsbD hk, hmod]
  interval_cases hq : k / 8
  · rw [if_pos (by omega)]
    rfl
  · rw [if_neg (by omega), if_pos (by omega)]
    rfl
  · rw [if_neg (by omega), if_neg (by omega), if_pos (by omega)]
    rfl
  · rw [if_neg (by omega), if_neg (by omega), if_neg (by omega)]
    rfl

/-- The word of an entry is `2^31` for a Mark, plus the duration (R80). -/
theorem PulseEntry.toWord_toNat {e : PulseEntry} (h : e.dur < 2 ^ 31) :
    e.toWord.toNat = (if e.kind = .mark then 2 ^ 31 else 0) + e.dur := by
  have hdur : ((BitVec.ofNat 31 e.dur).setWidth 32).toNat = e.dur := by
    rw [BitVec.toNat_setWidth_of_le (by decide), BitVec.toNat_ofNat, Nat.mod_eq_of_lt h]
  rw [PulseEntry.toWord, BitVec.toNat_or, hdur]
  cases e.kind with
  | mark => exact (Nat.two_pow_add_eq_or_of_lt h 1).symm
  | space => simp

/-- An entry with a duration of 31 bits is read back from its word (R80). -/
theorem PulseEntry.ofWord_toWord {e : PulseEntry} (h : e.dur < 2 ^ 31) : PulseEntry.ofWord e.toWord = e := by
  rw [PulseEntry.ofWord_eq, binary32_sign, PulseEntry.toWord_toNat h]
  obtain ⟨kind, d⟩ := e
  change d < 2 ^ 31 at h
  cases kind with
  | mark =>
    have hkind : (2 ^ 31 + d) / 2 ^ 31 = 1 := by omega
    simpa [hkind] using h
  | space =>
    have hkind : d / 2147483648 ≠ 1 := by omega
    simpa [hkind] using h

/-- DUR has 31 bits (R80). -/
theorem PulseEntry.ofWord_dur_lt (w : Word) : (PulseEntry.ofWord w).dur < 2 ^ 31 :=
  (w.extractLsb' 0 31).isLt

/-- Every word is the word of the entry it holds (R80). -/
@[simp] theorem PulseEntry.toWord_ofWord (w : Word) : (PulseEntry.ofWord w).toWord = w := by
  have hlt := w.isLt
  rw [← BitVec.toNat_inj, PulseEntry.toWord_toNat (PulseEntry.ofWord_dur_lt w), PulseEntry.ofWord_eq, binary32_sign]
  by_cases hs : w.toNat / 2 ^ 31 = 1
  · simp only [hs, decide_true, if_true]
    omega
  · simp only [hs, decide_false, Bool.false_eq_true, if_false, reduceCtorEq]
    omega

/-- The words that R80 lists are those of the layout's entries (R81). -/
theorem specEntry_toWord (w : Word) (i : Nat) : (specEntry w i).toWord = specPulseWord w i := by
  unfold specEntry specPulseWord
  split_ifs <;> rfl

/-- The PULSE words that ENCODE writes for a packet word (R80, R135). -/
theorem trainWord_encodeTrain (w : Word) (i : Fin 68) :
    trainWord (encodeTrain (Packet.ofWord w)) i = specPulseWord w i := by
  have hentry : (specTrain w)[i.val]? = some (specEntry w i) := by simp [specTrain, i.isLt]
  rw [encodeTrain_ofWord, trainWord, hentry]
  exact specEntry_toWord w i

/-- POWER of a SET word is its power (R74, R86). -/
@[simp] theorem powerField_settingsWord (p : Bool) (m : HvacMode) (f : FanSpeed) :
    powerField (settingsWord p m f) = p := by
  cases p <;> cases m <;> cases f <;> rfl

/-- MODE of a SET word is its mode's value (R74, R75, R86). -/
@[simp] theorem modeField_settingsWord (p : Bool) (m : HvacMode) (f : FanSpeed) :
    modeField (settingsWord p m f) = m.field.setWidth 2 := by
  cases p <;> cases m <;> cases f <;> rfl

/-- FAN of a SET word is its fan's value (R74, R76, R86). -/
@[simp] theorem fanField_settingsWord (p : Bool) (m : HvacMode) (f : FanSpeed) :
    fanField (settingsWord p m f) = f.field.setWidth 2 := by
  cases p <;> cases m <;> cases f <;> rfl

/-- A word with bit 31 clear is its low 31 bits. -/
theorem setWidth_ofNat_toNat {d : Word} (h : d.toNat < 2 ^ 31) : (BitVec.ofNat 31 d.toNat).setWidth 32 = d := by
  rw [← BitVec.toNat_inj, BitVec.toNat_setWidth_of_le (by decide), BitVec.toNat_ofNat, Nat.mod_eq_of_lt h]

/-- The word that MARK writes is that of its entry (R80, R86). -/
theorem PulseEntry.toWord_mark {d : Word} (h : d.toNat < 2 ^ 31) :
    PulseEntry.toWord { kind := .mark, dur := d.toNat } = 0x80000000#32 ||| d :=
  congrArg (0x80000000#32 ||| ·) (setWidth_ofNat_toNat h)

/-- The word that SPACE writes is that of its entry (R80, R86). -/
theorem PulseEntry.toWord_space {d : Word} (h : d.toNat < 2 ^ 31) :
    PulseEntry.toWord { kind := .space, dur := d.toNat } = d := by
  rw [PulseEntry.toWord, setWidth_ofNat_toNat h, BitVec.zero_or]

end Sys2Proof.Machine
end

section
/-! SUPPORT. The value of a binary32 pattern in ℚ (R77), and the patterns that lie on a bound of R108's table. -/

namespace Sys2Proof.Machine

/-- The sign field has one bit (R77). -/
theorem specSign_eq_zero_or_one (w : Word) : specSign w = 0 ∨ specSign w = 1 := by
  have hlt := w.isLt
  unfold specSign
  omega

/-- The fraction field has 23 bits (R77). -/
theorem specFraction_lt (w : Word) : specFraction w < 2 ^ 23 := Nat.mod_lt _ (by decide)

/-- A pattern is its three fields (R77). -/
theorem toNat_eq_fields (w : Word) : w.toNat = specSign w * 2 ^ 31 + specExp w * 2 ^ 23 + specFraction w := by
  unfold specSign specExp specFraction
  omega

/-- The sign of a pattern's magnitude is the factor of R77. -/
theorem signed_cast (w : Word) (m : Nat) :
    ((signed (decide (specSign w = 1)) m : ℤ) : ℚ) = (-1) ^ specSign w * m := by
  obtain h | h := specSign_eq_zero_or_one w <;> simp [signed, h]

/-- The reading of a pattern, by its fields as numbers (R77). -/
theorem Temp.ofWord_eq_ite (w : Word) :
    Temp.ofWord w =
      if specExp w = 0 then
        .finite { num := signed (decide (specSign w = 1)) (specFraction w), den := 2 ^ 149 }
      else if specExp w = 255 then
        if specFraction w = 0 then .inf (decide (specSign w = 1)) else .nan
      else
        .finite { num := signed (decide (specSign w = 1)) ((2 ^ 23 + specFraction w) * 2 ^ (specExp w - 150)),
                  den := 2 ^ (150 - specExp w) } := by
  simp only [Temp.ofWord, binary32_exponent_toNat, binary32_fraction_toNat, binary32_sign]
  rfl

/-- With the exponent field 0, the model's fraction is the first line of R77. -/
theorem toRat_of_specExp_eq_zero {w : Word} (he : specExp w = 0) :
    Frac.toRat { num := signed (decide (specSign w = 1)) (specFraction w), den := 2 ^ 149 } = specFloat w := by
  rw [Frac.toRat, specFloat, if_pos he, signed_cast, zpow_neg, div_eq_mul_inv]
  norm_cast

/-- Of the model's two powers one is 1, and together they are `2^(e - 150)`. -/
theorem two_pow_div_two_pow (e : Nat) : (2 : ℚ) ^ (e - 150) / 2 ^ (150 - e) * 2 ^ 23 = 2 ^ ((e : ℤ) - 127) := by
  have he : (e : ℤ) - 127 = ((e - 150 : ℕ) : ℤ) - ((150 - e : ℕ) : ℤ) + (23 : ℕ) := by omega
  rw [he, zpow_add₀ two_ne_zero, zpow_sub₀ two_ne_zero, zpow_natCast, zpow_natCast, zpow_natCast]

/-- With another exponent field, the model's fraction is the second line of R77. -/
theorem toRat_of_specExp_ne_zero {w : Word} (he : specExp w ≠ 0) :
    Frac.toRat { num := signed (decide (specSign w = 1)) ((2 ^ 23 + specFraction w) * 2 ^ (specExp w - 150)),
                 den := 2 ^ (150 - specExp w) } = specFloat w := by
  rw [Frac.toRat, specFloat, if_neg he, signed_cast, ← two_pow_div_two_pow]
  push_cast
  ring

/-- A pattern whose sign bit is set is at most 0. -/
theorem specFloat_nonpos {w : Word} (hs : specSign w = 1) : specFloat w ≤ 0 := by
  rw [specFloat, hs, pow_one]
  split_ifs <;> (simp only [neg_mul, Left.neg_nonpos_iff]; positivity)

/-- A pattern whose exponent field is 0 is below 1. -/
theorem specFloat_lt_one {w : Word} (hs : specSign w = 0) (he : specExp w = 0) : specFloat w < 1 := by
  have hlt : (specFraction w : ℚ) < 2 ^ 23 := by exact_mod_cast specFraction_lt w
  rw [specFloat, if_pos he, hs, pow_zero, one_mul]
  calc (specFraction w : ℚ) * 2 ^ (-149 : ℤ) ≤ 2 ^ 23 * 2 ^ (-149 : ℤ) := by gcongr
    _ < 1 := by norm_num

/-- The significand `1 + f / 2^23` lies in [1, 2) (R77). -/
theorem significand_mem (w : Word) :
    (1 : ℚ) ≤ 1 + specFraction w / 2 ^ 23 ∧ (1 : ℚ) + specFraction w / 2 ^ 23 < 2 := by
  have hlt : (specFraction w : ℚ) < 2 ^ 23 := by exact_mod_cast specFraction_lt w
  have hdiv : (specFraction w : ℚ) / 2 ^ 23 < 1 := (div_lt_one (by norm_num)).2 hlt
  have hnonneg : (0 : ℚ) ≤ specFraction w / 2 ^ 23 := by positivity
  constructor <;> linarith

/-- The patterns from 16 up to 32 are positive and have the exponent field 131. -/
theorem specFloat_of_sixteen_le_of_lt {w : Word} (hlo : 16 ≤ specFloat w) (hhi : specFloat w < 32) :
    specSign w = 0 ∧ specExp w = 131 ∧ specFloat w = (1 + specFraction w / 2 ^ 23) * 16 := by
  have hs : specSign w = 0 :=
    (specSign_eq_zero_or_one w).resolve_right fun h => by linarith [specFloat_nonpos h]
  have he : specExp w ≠ 0 := fun h => by linarith [specFloat_lt_one hs h]
  have hval : specFloat w = (1 + specFraction w / 2 ^ 23) * 2 ^ ((specExp w : ℤ) - 127) := by
    rw [specFloat, if_neg he, hs, pow_zero, one_mul]
  obtain ⟨hone, htwo⟩ := significand_mem w
  have hpos : (0 : ℚ) < 2 ^ ((specExp w : ℤ) - 127) := by positivity
  have hle := le_mul_of_one_le_left hpos.le hone
  have hlt := mul_lt_mul_of_pos_right htwo hpos
  have hlow : (2 : ℚ) ^ (3 : ℤ) < 2 ^ ((specExp w : ℤ) - 127) := by norm_num; linarith
  have hhigh : (2 : ℚ) ^ ((specExp w : ℤ) - 127) < 2 ^ (5 : ℤ) := by norm_num; linarith
  rw [zpow_lt_zpow_iff_right₀ one_lt_two] at hlow hhigh
  have hexp : specExp w = 131 := by omega
  refine ⟨hs, hexp, ?_⟩
  rw [hval, hexp]
  norm_num

/-- A pattern on a bound of R108's table is one of three: `9 × (2^23 + f) = 5 × 2^18 × (2n - 65)`, so 9 divides
`2n - 65`. -/
theorem eq_of_specFloat_eq_bound {w : Word} {n : Nat} (hlo : 63 ≤ n) (hhi : n ≤ 86)
    (h : specFloat w = (2 * (n : ℚ) - 65) * (5 / 18)) :
    w = 0x418C0000#32 ∨ w = 0x41B40000#32 ∨ w = 0x41DC0000#32 := by
  have hlo' : (63 : ℚ) ≤ n := by exact_mod_cast hlo
  have hhi' : (n : ℚ) ≤ 86 := by exact_mod_cast hhi
  obtain ⟨hs, he, hval⟩ := specFloat_of_sixteen_le_of_lt (w := w) (by linarith) (by linarith)
  rw [hval] at h
  have hrat : (9 * (2 ^ 23 + specFraction w) + 65 * (5 * 2 ^ 18) : ℚ) = 5 * 2 ^ 19 * n := by linarith
  have hnat : 9 * (2 ^ 23 + specFraction w) + 65 * (5 * 2 ^ 18) = 5 * 2 ^ 19 * n := by exact_mod_cast hrat
  simp only [← BitVec.toNat_inj, toNat_eq_fields w, hs, he, BitVec.toNat_ofNat]
  omega

end Sys2Proof.Machine
end

section
/-! CERTIFICATES. The statements of 30_encoding.md, settled. -/

namespace Sys2Proof.Machine

/-- Settles O21, by the three ranges of the exponent field. -/
theorem temperatureIsTheBinary32Value : Obligations.TemperatureIsTheBinary32Value := by
  intro w
  rw [Temp.ofWord_eq_ite]
  split_ifs with h0 h255 hf
  · exact ⟨by omega, toRat_of_specExp_eq_zero h0⟩
  · exact ⟨h255, hf, decide_eq_true_iff⟩
  · exact ⟨h255, hf⟩
  · exact ⟨h255, toRat_of_specExp_ne_zero h0⟩

/-- Settles O24: a finite pattern has its binary32 value, and 17.5, 22.5 and 27.5 are the bounds of 64, 73 and 82. -/
theorem onlyThreeInputsAreExactHalves : Obligations.OnlyThreeInputsAreExactHalves := by
  intro w
  constructor
  · rintro ⟨q, hq, n, hlo, hhi, hn⟩
    have hvalue := temperatureIsTheBinary32Value w
    rw [hq] at hvalue
    obtain ⟨_, hrat⟩ := hvalue
    exact eq_of_specFloat_eq_bound hlo hhi (hrat ▸ hn)
  · rintro (rfl | rfl | rfl)
    · exact ⟨{ num := 35 * 2 ^ 18, den := 2 ^ 19 }, rfl, 64, by decide, by decide, by norm_num [Frac.toRat]⟩
    · exact ⟨{ num := 45 * 2 ^ 18, den := 2 ^ 19 }, rfl, 73, by decide, by decide, by norm_num [Frac.toRat]⟩
    · exact ⟨{ num := 55 * 2 ^ 18, den := 2 ^ 19 }, rfl, 82, by decide, by decide, by norm_num [Frac.toRat]⟩

/-- Settles O30: every packet is the packet of its word. -/
theorem encodedTrainHasTheLayout : Obligations.EncodedTrainHasTheLayout := by
  intro p
  have htrain : encodeTrain p = specTrain p.toWord := by rw [← encodeTrain_ofWord, Packet.ofWord_toWord]
  exact ⟨htrain, encodeTrain_length p, fun _ hk => p.bytes_getLsbD hk⟩

/-- Settles O32, with the buffer that ENCODE's write of the train leaves. -/
theorem encodeWritesTheTrainAndTransmits : Obligations.EncodeWritesTheTrainAndTransmits := by
  intro s hwritten
  obtain ⟨hw, _⟩ | ⟨_, hexec⟩ := execEncode_cases s
  · simp [hwritten] at hw
  refine ⟨(s.writeTrain (trainWord (encodeTrain (Packet.ofWord s.packet.word)))).pulse, fun i => ?_, ?_⟩
  · rw [State.writeTrain_get, trainWord_encodeTrain]
    rfl
  · rw [← encodeTrain_ofWord]
    exact hexec

/-- Settles O50, by the round trips of the packet word and its value. -/
theorem packetWordRoundTrip : Obligations.PacketWordRoundTrip :=
  ⟨Packet.ofWord_toWord, Packet.toWord_ofWord, Packet.toWord_toNat, rfl⟩

/-- Settles O51, by the round trips of the pulse word and its value. -/
theorem pulseWordRoundTrip : Obligations.PulseWordRoundTrip :=
  ⟨fun w => ⟨PulseEntry.toWord_ofWord w, PulseEntry.ofWord_dur_lt w⟩, fun _ => PulseEntry.ofWord_toWord,
    fun _ => PulseEntry.toWord_toNat, rfl, rfl, rfl, rfl, rfl⟩

/-- Settles O2, from the statement made per instruction. -/
theorem encodedCommandsDecodeToThemselves : Obligations.EncodedCommandsDecodeToThemselves := by
  intro i _
  obtain ⟨_, hbytes, hword⟩ := commandWord_statement i
  refine ⟨hbytes, fun w => ⟨hword w, ?_⟩⟩
  rintro rfl
  exact decodeWord_encode i

/-- Settles O3: a CMD write by the word, none of the three commands being meant. -/
theorem illegalWordSetsOnlyStatus : Obligations.IllegalWordSetsOnlyStatus := by
  intro w s h1 h2 h3
  rw [command_eq_ite, if_neg h1, if_neg h2, if_neg h3]
  rfl

/-- Settles O52: the fields of SET's word, and the words of MARK and SPACE as those of their entries. -/
theorem notationWordsCarryTheirOperands : Obligations.NotationWordsCarryTheirOperands := by
  refine ⟨fun _ p m f => ⟨rfl, powerField_settingsWord p m f, ?_, ?_⟩, fun _ _ d => ⟨rfl, rfl, fun hd => ?_⟩⟩
  · rw [modeField_settingsWord]
    cases m <;> rfl
  · rw [fanField_settingsWord]
    cases f <;> rfl
  · constructor
    · rw [← PulseEntry.toWord_mark hd, PulseEntry.ofWord_toWord hd]
    · conv_lhs => rw [← PulseEntry.toWord_space hd]
      exact PulseEntry.ofWord_toWord hd

end Sys2Proof.Machine
end

section
/-! SUPPORT. What COMPILE computes: the fields of SETTINGS and their bytes (R74, R100 to R104), and the setpoint byte in
ℚ (R105 to R108). -/

namespace Sys2Proof.Machine

/-- MODE as a number (R74). -/
theorem modeField_toNat (settings : Word) : (modeField settings).toNat = settings.toNat / 2 % 4 := by
  simp [modeField, BitVec.extractLsb'_toNat, Nat.shiftRight_eq_div_pow]

/-- FAN as a number (R74). -/
theorem fanField_toNat (settings : Word) : (fanField settings).toNat = settings.toNat / 8 % 4 := by
  simp [fanField, BitVec.extractLsb'_toNat, Nat.shiftRight_eq_div_pow]

/-- POWER is the low bit (R74). -/
theorem powerField_eq_decide (settings : Word) : powerField settings = decide (settings.toNat % 2 = 1) := by
  simp [powerField, BitVec.getLsbD, Nat.testBit_zero]

/-- MODE lies above bit 0 (R74). -/
theorem modeField_ushiftRight (settings : Word) : modeField settings = (settings >>> 1).extractLsb' 0 2 := by
  rw [← BitVec.toNat_inj, modeField_toNat]
  simp [BitVec.extractLsb'_toNat, Nat.shiftRight_eq_div_pow]

/-- FAN lies above bit 0 (R74). -/
theorem fanField_ushiftRight (settings : Word) : fanField settings = (settings >>> 1).extractLsb' 2 2 := by
  rw [← BitVec.toNat_inj, fanField_toNat]
  simp [BitVec.extractLsb'_toNat, Nat.shiftRight_eq_div_pow, Nat.div_div_eq_div_mul]

/-- The mode bit is the one R100 lists for MODE's number. -/
theorem modeBit_toNat (m : BitVec 2) : (modeBit m).toNat = specModeBit m.toNat := by
  revert m
  decide

/-- The fan bit is the one R101 lists for FAN's number. -/
theorem fanBit_toNat (f : BitVec 2) : (fanBit f).toNat = specFanBit f.toNat := by
  revert f
  decide

/-- Byte 1 is the mode bit OR the fan bit (R102). -/
@[simp] theorem compilePacket_b1 (settings w : Word) (d : Byte) :
    (compilePacket settings w d).b1 = modeBit (modeField settings) ||| fanBit (fanField settings) := rfl

/-- Byte 1 from the fields' numbers (R102). -/
theorem modeBit_or_fanBit_toNat (settings : Word) :
    (modeBit (modeField settings) ||| fanBit (fanField settings)).toNat =
      (specModeBit (settings.toNat / 2 % 4) ||| specFanBit (settings.toNat / 8 % 4)) := by
  rw [BitVec.toNat_or, modeBit_toNat, fanBit_toNat, modeField_toNat, fanField_toNat]

/-- The power constant from the low bit of SETTINGS (R103). -/
theorem powerByte_powerField (settings : Word) :
    powerByte (powerField settings) = if settings.toNat % 2 = 1 then 0xA8#8 else 0x32#8 := by
  simp only [powerByte, powerField_eq_decide, decide_eq_true_eq, powerOnByte, powerOffByte]

/-- Byte 3 is the setpoint byte (R106). -/
@[simp] theorem compilePacket_b3 (settings w : Word) (d : Byte) :
    (compilePacket settings w d).b3 = setpointByte (Temp.ofWord w) d := rfl

/-- `T_MIN_C` in ℚ (R8). -/
theorem tMinC_toRat : tMinC.toRat = 1667 / 100 := by norm_num [tMinC, tMin, Frac.toRat]

/-- `T_MAX_C` in ℚ (R8). -/
theorem tMaxC_toRat : tMaxC.toRat = 30 := by norm_num [tMaxC, tMax, Frac.toRat]

/-- A clamped value has a positive denominator. -/
theorem clampFrac_den_pos {q : Frac} (hq : 0 < q.den) : 0 < (clampFrac q).den := by
  unfold clampFrac
  split_ifs
  · decide
  · decide
  · exact hq

/-- `clamp` in ℚ (R105). -/
theorem clampFrac_toRat {q : Frac} (hq : 0 < q.den) : (clampFrac q).toRat = max (1667 / 100) (min 30 q.toRat) := by
  have hmin := Frac.lt_iff_toRat hq (b := tMinC) (by decide)
  have hmax := Frac.lt_iff_toRat (a := tMaxC) (by decide) hq
  rw [tMinC_toRat] at hmin
  rw [tMaxC_toRat] at hmax
  simp only [clampFrac, hmin, hmax]
  split_ifs with hlow hhigh
  · rw [tMinC_toRat, min_eq_right (by linarith), max_eq_left hlow.le]
  · rw [tMaxC_toRat, min_eq_left hhigh.le, max_eq_right (by norm_num)]
  · rw [min_eq_right (not_lt.1 hhigh), max_eq_right (not_lt.1 hlow)]

/-- The conversion of a value of at least 0 in ℚ: a half goes up (R13, R106). -/
theorem fahrenheit_eq_floor {c : Frac} (hd : 0 < c.den) (hc : 0 ≤ c.toRat) :
    fahrenheit c = ⌊c.toRat * (9 / 5) + 32 + 1 / 2⌋ := by
  have hmul : 0 < (c.mul { num := fahrenheitScale.1, den := fahrenheitScale.2 }).den := Frac.mul_den_pos hd (by decide)
  have hsum : ((c.mul { num := fahrenheitScale.1, den := fahrenheitScale.2 }).add
      { num := fahrenheitOffset.1, den := fahrenheitOffset.2 }).toRat = c.toRat * (9 / 5) + 32 := by
    rw [Frac.toRat_add hmul (by decide), Frac.toRat_mul]
    norm_num [Frac.toRat, fahrenheitScale, fahrenheitOffset]
  rw [fahrenheit, Frac.roundHalfAway_of_nonneg (Frac.add_den_pos hmul (by decide)) (by rw [hsum]; positivity), hsum,
    round_eq]

/-- The model's setpoint of a finite temperature is the one in ℚ (R105, R106). -/
theorem fahrenheit_clampFrac {q : Frac} (hq : 0 < q.den) : fahrenheit (clampFrac q) = specSetpoint q.toRat := by
  have hnonneg : 0 ≤ (clampFrac q).toRat := by
    rw [clampFrac_toRat hq]
    exact le_max_of_le_left (by norm_num)
  rw [fahrenheit_eq_floor (clampFrac_den_pos hq) hnonneg, clampFrac_toRat hq, specSetpoint]

/-- The setpoints of R108's table are 62 to 86. -/
theorem specSetpoint_mem (t : ℚ) : 62 ≤ specSetpoint t ∧ specSetpoint t ≤ 86 := by
  have hlow : (1667 / 100 : ℚ) ≤ max (1667 / 100) (min 30 t) := le_max_left _ _
  have hhigh : max (1667 / 100) (min 30 t) ≤ 30 := max_le (by norm_num) (min_le_left _ _)
  rw [specSetpoint, Int.le_floor, ← Int.lt_add_one_iff, Int.floor_lt]
  push_cast
  constructor <;> linarith

/-- The setpoint reaches `n` from the lower bound of its interval on (R108). -/
theorem le_specSetpoint_iff {n : ℤ} (hlo : 63 ≤ n) (hhi : n ≤ 86) (t : ℚ) :
    n ≤ specSetpoint t ↔ (2 * (n : ℚ) - 65) * (5 / 18) ≤ t := by
  have hlo' : (63 : ℚ) ≤ n := by exact_mod_cast hlo
  have hhi' : (n : ℚ) ≤ 86 := by exact_mod_cast hhi
  have hmin : ¬(2 * (n : ℚ) - 65) * (5 / 18) ≤ 1667 / 100 := by linarith
  have hmax : (2 * (n : ℚ) - 65) * (5 / 18) ≤ 30 := by linarith
  have hbound : (n : ℚ) ≤ max (1667 / 100) (min 30 t) * (9 / 5) + 32 + 1 / 2 ↔
      (2 * (n : ℚ) - 65) * (5 / 18) ≤ max (1667 / 100) (min 30 t) := by
    constructor <;> intro h <;> linarith
  rw [specSetpoint, Int.le_floor, hbound, le_max_iff, le_min_iff, or_iff_right hmin, and_iff_right hmax]

/-- The setpoint is `n` exactly in the interval R108's table gives `n`. -/
theorem specSetpoint_eq_iff {n : ℕ} (hlo : 62 ≤ n) (hhi : n ≤ 86) (t : ℚ) :
    specSetpoint t = n ↔ (n = 62 ∨ (2 * (n : ℚ) - 65) * (5 / 18) ≤ t) ∧
      (n = 86 ∨ t < (2 * ((n : ℚ) + 1) - 65) * (5 / 18)) := by
  obtain ⟨hmin, hmax⟩ := specSetpoint_mem t
  have hlower : n = 62 ∨ (2 * (n : ℚ) - 65) * (5 / 18) ≤ t ↔ (n : ℤ) ≤ specSetpoint t := by
    obtain rfl | hn := eq_or_ne n 62
    · simpa using hmin
    · simpa [hn] using (le_specSetpoint_iff (n := n) (by omega) (by omega) t).symm
  have hupper : n = 86 ∨ t < (2 * ((n : ℚ) + 1) - 65) * (5 / 18) ↔ specSetpoint t < n + 1 := by
    obtain rfl | hn := eq_or_ne n 86
    · simpa using Int.lt_add_one_of_le hmax
    · simpa [hn] using (le_specSetpoint_iff (n := n + 1) (by omega) (by omega) t).not.symm
  rw [hlower, hupper]
  omega

/-- The setpoint byte of a finite temperature (R105, R106). -/
theorem setpointByte_finite (q : Frac) (d : Byte) :
    setpointByte (.finite q) d = BitVec.ofInt 8 (fahrenheit (clampFrac q)) := rfl

/-- The setpoint byte of every pattern is the one of R105 to R107. -/
theorem setpointByte_spec (w : Word) (d : Byte) : SpecByte3 w d (setpointByte (Temp.ofWord w) d) := by
  have hvalue := temperatureIsTheBinary32Value w
  cases h : Temp.ofWord w with
  | finite q =>
    rw [h] at hvalue
    obtain ⟨he, hrat⟩ := hvalue
    obtain ⟨hmin, hmax⟩ := specSetpoint_mem (specFloat w)
    have hbyte : ((setpointByte (.finite q) d).toNat : ℤ) = specSetpoint (specFloat w) := by
      rw [setpointByte_finite, fahrenheit_clampFrac (Temp.ofWord_den_pos h), hrat, BitVec.toNat_ofInt]
      omega
    exact ⟨fun hnan => absurd hnan.1 he, fun h255 => absurd h255 he, fun _ => hbyte⟩
  | inf neg =>
    rw [h] at hvalue
    obtain ⟨he, hf, hneg⟩ := hvalue
    refine ⟨fun hnan => absurd hf hnan.2, fun _ _ => ?_, fun h255 => absurd he h255⟩
    rw [← if_congr hneg rfl rfl]
    cases neg <;> rfl
  | nan =>
    rw [h] at hvalue
    obtain ⟨he, hf⟩ := hvalue
    exact ⟨fun _ => rfl, fun _ hzero => absurd hzero hf, fun h255 => absurd he h255⟩

/-- COMPILE draws for a NaN alone (R107). -/
theorem drawsOf_ofWord (w : Word) : drawsOf (Temp.ofWord w) = if IsNaN w then 1 else 0 := by
  have hvalue := temperatureIsTheBinary32Value w
  cases h : Temp.ofWord w with
  | finite q =>
    rw [h] at hvalue
    obtain ⟨he, _⟩ := hvalue
    exact (if_neg fun hnan => he hnan.1).symm
  | inf neg =>
    rw [h] at hvalue
    obtain ⟨_, hf, _⟩ := hvalue
    exact (if_neg fun hnan => hnan.2 hf).symm
  | nan =>
    rw [h] at hvalue
    exact (if_pos hvalue).symm

/-- A register other than STATUS and PACKET reads as before where the fields it shows are as before (R56). -/
theorem State.readReg_congr {s t : State} {r : Reg} (hr : r ≠ .status) (hr' : r ≠ .packet)
    (hset : t.settings = s.settings) (htmp : t.tempC = s.tempC) (hlen : t.pulseLen = s.pulseLen)
    (hpulse : t.pulse = s.pulse) : t.readReg r = s.readReg r := by
  cases r with
  | status => contradiction
  | packet => contradiction
  | _ => simp only [State.readReg, hset, htmp, hlen, hpulse]

/-- COMPILE with TEMP_C written (R109, R110). -/
theorem execCompile_of_written {s : State} (h : s.tempC.written = true) :
    execCompile s = .next (((s.useDraws (drawsOf (Temp.ofWord s.tempC.word))).writePacket
      (compilePacket s.settings s.tempC.word (Config.freeByte s.draws)).toWord).setResult .ok) := by
  obtain ⟨hclear, _⟩ | ⟨_, hexec⟩ := execCompile_cases s
  · simp [h] at hclear
  · exact hexec

end Sys2Proof.Machine
end

section
/-! SUPPORT. The decoder's bits become the packet word, and the train of a packet word decodes to that word at every
tolerance (R154, R155, R158, R160). -/

namespace Sys2Proof.Machine

/-- The bit that R155 puts in place `n` of a byte is there and nowhere else. -/
theorem bitMask_getLsbD (b : Bool) (n : Nat) {i : Nat} (hi : i < 8) :
    ((if b then 1#8 else 0#8) <<< n).getLsbD i = (decide (i = n) && b) := by
  cases b with
  | false => simp
  | true =>
    obtain hlt | hle := Nat.lt_or_ge i n
    · simp [hlt, hlt.ne]
    · have hin : i - n = 0 ↔ i = n := by omega
      simp [hi, hle, hin]

/-- Putting bit `k` in place changes byte `k div 8` alone (R158). -/
theorem Packet.orBit_bytes (p : Packet) {k : Nat} (b : Bool) (hk : k < 32) :
    (p.orBit k b).bytes = p.bytes.modify (k / 8) (· ||| (if b then 1#8 else 0#8) <<< (k % 8)) := by
  have hq : k / 8 < 4 := by omega
  unfold Packet.orBit
  interval_cases k / 8 <;> rfl

/-- Putting bit `k` in place sets bit `k` of the packet word and no other (R79, R155, R158). -/
theorem Packet.orBit_toWord_getLsbD (p : Packet) {k j : Nat} (b : Bool) (hk : k < 32) (hj : j < 32) :
    (p.orBit k b).toWord.getLsbD j = (p.toWord.getLsbD j || (decide (j = k) && b)) := by
  have hbyte : ∀ a : Byte,
      (if k / 8 = j / 8 then a ||| (if b then 1#8 else 0#8) <<< (k % 8) else a).getLsbD (j % 8) =
        (a.getLsbD (j % 8) || (decide (j = k) && b)) := fun a => by
    by_cases h : k / 8 = j / 8
    · have hjk : j % 8 = k % 8 ↔ j = k := by omega
      rw [if_pos h, BitVec.getLsbD_or, bitMask_getLsbD b _ (Nat.mod_lt _ (by decide)), decide_eq_decide.2 hjk]
    · have hjk : j ≠ k := by omega
      simp [h, hjk]
  have hbit := (p.orBit k b).bytes_getLsbD hj
  rw [p.orBit_bytes b hk, List.getElem?_modify] at hbit
  have hold := p.bytes_getLsbD hj
  obtain ⟨a, ha, hold⟩ := Option.map_eq_some_iff.1 hold
  simp only [ha, Option.map_eq_map, Option.map_some, Option.some.injEq, hbyte, hold] at hbit
  exact hbit.symm

/-- Bit cells that read as the bits of a word from `k` on complete a packet that holds its bits below `k` (R155). -/
theorem decodeCells_of_bits {tol : ℚ} {read : PulseReader} {w : Word} (todo k : Nat) (p : Packet) (hk : k + todo = 32)
    (hp : ∀ j, j < 32 → p.toWord.getLsbD j = (decide (j < k) && w.getLsbD j))
    (h : ∀ m, k ≤ m → m < 32 → decodeCell tol read m = .ok (w.getLsbD m)) :
    decodeCells tol read todo k p = .ok (Packet.ofWord w) := by
  induction todo generalizing k p with
  | zero =>
    have hword : p.toWord = w := BitVec.eq_of_getLsbD_eq fun j hj => by simp [hp j hj, show j < k by omega]
    rw [decodeCells, ← hword, Packet.ofWord_toWord]
  | succ todo ih =>
    rw [decodeCells, h k le_rfl (by omega)]
    refine ih (k + 1) _ (by omega) (fun j hj => ?_) fun m hm => h m (by omega)
    rw [p.orBit_toWord_getLsbD _ (by omega) hj, hp j hj]
    obtain hlt | rfl | hgt := lt_trichotomy j k
    · simp [hlt, hlt.ne, Nat.lt_succ_of_lt hlt]
    · simp
    · simp [hgt.not_gt, hgt.ne', Nat.not_lt.2 hgt]

/-- A train of 68 entries that pass every check decodes to the word of its cells' bits (R155, R157, R158). -/
theorem decodeWith_of_passes {tol : ℚ} {read : PulseReader} {w : Word}
    (h : ∀ n, n < 68 → checkPosition tol read n = .ok ())
    (hbit : ∀ k, k < 32 → ∀ e, read (3 + 2 * k) = .ok e → w.getLsbD k = decide (NearerShort e.dur)) :
    decodeWith tol read 68 = .ok (Packet.ofWord w) := by
  have hcell : ∀ k, 0 ≤ k → k < 32 → decodeCell tol read k = .ok (w.getLsbD k) := fun k _ hk => by
    obtain ⟨e, he, hc⟩ := decodeCell_of_passes hk (h (2 + 2 * k) (by omega)) (h (3 + 2 * k) (by omega))
    rw [hc, hbit k hk e he]
  have hzero : ∀ j, j < 32 → Packet.zero.toWord.getLsbD j = (decide (j < 0) && w.getLsbD j) := fun j _ => by
    simp [Packet.zero, Packet.toWord]
  rw [decodeWith, if_neg (by decide), checkLeadIn_eq, checkTrailer_eq, h 0 (by decide), h 66 (by decide)]
  simp only [Except.bind, h 1 (by decide), h 67 (by decide)]
  rw [decodeCells_of_bits (8 * pktLen) 0 Packet.zero rfl hzero hcell]

/-- A nominal duration lies in its own window, whatever the tolerance (R14). -/
theorem inWindow_self {tol : ℚ} (htol : 0 ≤ tol) (nom : Nat) : InWindow tol nom nom := by
  have hslack : 0 ≤ (nom : ℚ) * tol := by positivity
  constructor <;> linarith

/-- The entry of bit `k`'s space (R81). -/
theorem specEntry_space (w : Word) {k : Nat} (hk : k < 32) :
    specEntry w (3 + 2 * k) = { kind := .space, dur := if w.getLsbD k then 550 else 1550 } := by
  have hindex : (3 + 2 * k - 3) / 2 = k := by omega
  rw [specEntry, if_neg (by omega), if_neg (by omega), if_neg (by omega), hindex]

/-- A space of the layout is nearer to the nominal of its bit (R83, R154). -/
theorem nearerShort_specEntry (w : Word) {k : Nat} (hk : k < 32) :
    NearerShort (specEntry w (3 + 2 * k)).dur ↔ w.getLsbD k = true := by
  rw [specEntry_space w hk, nearerShort_iff]
  cases w.getLsbD k <;> simp

/-- Every entry of the layout passes the check of its position (R160). -/
theorem specEntry_passes {tol : ℚ} (htol : 0 ≤ tol) (w : Word) (n : Nat) : PositionPasses tol n (specEntry w n) := by
  have hwin := inWindow_self htol
  unfold PositionPasses specEntry
  split_ifs with h0 h1 h2 hb
  · exact ⟨rfl, hwin 8500⟩
  · exact ⟨rfl, hwin 4400⟩
  · exact ⟨rfl, hwin 550⟩
  · exact ⟨rfl, .inl (hwin 550), .inl ((nearerShort_iff _).2 (by decide))⟩
  · exact ⟨rfl, .inr (hwin 1550), .inr ((nearerLong_iff _).2 (by decide))⟩

/-- A reader of the layout's entries decodes to the packet word (R160). -/
theorem decodeWith_of_specEntry {tol : ℚ} {read : PulseReader} {w : Word} (htol : 0 ≤ tol)
    (h : ∀ n, n < 68 → read n = .ok (specEntry w n)) : decodeWith tol read 68 = .ok (Packet.ofWord w) := by
  refine decodeWith_of_passes (fun n hn => checkPosition_of_passes (h n hn) (specEntry_passes htol w n)) ?_
  intro k hk e he
  obtain rfl : specEntry w (3 + 2 * k) = e := Except.ok.inj ((h _ (by omega)).symm.trans he)
  simp only [nearerShort_specEntry w hk, Bool.decide_eq_true]

/-- The durations of the layout have 31 bits (R80, R81). -/
theorem specEntry_dur_lt (w : Word) (n : Nat) : (specEntry w n).dur < 2 ^ 31 := by
  unfold specEntry
  split_ifs <;> decide

/-- A buffer that holds the PULSE words of a train reads as its entries (R80, R159). -/
theorem pulseReader_of_specPulseWord {buf : Vector Cell 68} {w : Word}
    (h : ∀ i : Fin 68, buf[i] = { word := specPulseWord w i, written := true }) {n : Nat} (hn : n < 68) :
    pulseReader buf n = .ok (specEntry w n) := by
  have hcell : buf[n]? = some { word := specPulseWord w n, written := true } := by
    rw [Vector.getElem?_eq_getElem hn]
    exact congrArg some (h ⟨n, hn⟩)
  simp only [pulseReader, hcell, Cell.read, if_true]
  rw [← specEntry_toWord, PulseEntry.ofWord_toWord (specEntry_dur_lt w n)]

/-- DECODE of a buffer that holds the train of a packet word writes that word to PACKET (R159, R160). -/
theorem execDecode_of_specPulseWord {s : State} {w : Word} (htol : 0 ≤ s.params.tol) (hlen : s.pulseLen = 68#32)
    (h : ∀ i : Fin 68, s.pulse[i] = { word := specPulseWord w i, written := true }) :
    execDecode s = .next ((s.writePacket w).setResult .ok) := by
  have hdec : decodeWith s.params.tol (pulseReader s.pulse) s.pulseLen.toNat = .ok (Packet.ofWord w) := by
    rw [hlen]
    exact decodeWith_of_specEntry htol fun n hn => pulseReader_of_specPulseWord h hn
  simp only [execDecode, hdec, Packet.toWord_ofWord]

end Sys2Proof.Machine
end

section
/-! CERTIFICATES. The statements of 40_compile.md, settled. -/

namespace Sys2Proof.Machine

/-- Settles O45: ENCODE fills the buffer with the train of the compiled word, which DECODE reads back whatever PACKET
holds by then. -/
theorem compileEncodeDecodeRestoresThePacket : Obligations.CompileEncodeDecodeRestoresThePacket := by
  intro s w hwritten htol
  have hcompile := execCompile_of_written hwritten
  generalize drawsOf _ = n, Packet.toWord _ = compiled at hcompile
  obtain ⟨buf, hbuf, hencode⟩ :=
    encodeWritesTheTrainAndTransmits (((s.useDraws n).writePacket compiled).setResult .ok) rfl
  exact ⟨_, _, _, hcompile, hencode, execDecode_of_specPulseWord htol rfl hbuf, rfl, rfl, rfl⟩

/-- Settles O23: byte 3 is the setpoint of R105 and R106 in ℚ, whose intervals the table lists. -/
theorem setpointIntervals : Obligations.SetpointIntervals := by
  intro settings w d hnan
  obtain ⟨_, hinf, hfinite⟩ := setpointByte_spec w d
  rw [compilePacket_b3]
  by_cases he : specExp w = 255
  · have hbyte := hinf he (not_not.1 fun hf => hnan ⟨he, hf⟩)
    refine ⟨?_, ?_, fun h => absurd he h⟩ <;> rw [hbyte] <;> split_ifs <;> decide
  · have hbyte := hfinite he
    obtain ⟨hmin, hmax⟩ := specSetpoint_mem (specFloat w)
    refine ⟨by omega, by omega, fun _ n hlo hhi => ?_⟩
    rw [← specSetpoint_eq_iff hlo hhi, ← hbyte, Nat.cast_inj]

/-- Settles O25: the packet word is the four bytes side by side. -/
theorem compileWritesPacketAndStatus : Obligations.CompileWritesPacketAndStatus := by
  intro s hwritten
  refine ⟨_, _, _, modeBit_or_fanBit_toNat s.settings, powerByte_powerField s.settings,
    setpointByte_spec s.tempC.word (Config.freeByte s.draws), ?_⟩
  change execCompile s = _
  rw [execCompile_of_written hwritten, Packet.toWord_eq_append, drawsOf_ofWord]
  split_ifs <;> rfl

/-- Settles O29, by COMPILE's two cases. -/
theorem compileFrame : Obligations.CompileFrame := by
  intro s t h
  change execCompile s = _ at h
  obtain ⟨hclear, h'⟩ | ⟨_, h'⟩ := execCompile_cases s <;> rw [h'] at h <;> cases h
  · refine ⟨rfl, rfl, rfl, rfl, rfl, rfl, rfl, rfl, fun hw => ?_, fun _ => rfl, fun r hr hr' => ?_⟩
    · simp [hclear] at hw
    · exact State.readReg_congr hr hr' rfl rfl rfl rfl
  · refine ⟨rfl, rfl, rfl, rfl, rfl, rfl, rfl, rfl, fun _ => rfl, fun hnan => ?_, fun r hr hr' => ?_⟩
    · simp [drawsOf_ofWord, hnan]
    · exact State.readReg_congr hr hr' rfl rfl rfl rfl

/-- Settles O26, over the sixteen pairs of fields. -/
theorem modeFanByteHasOneModeAndOneFanBit : Obligations.ModeFanByteHasOneModeAndOneFanBit := by
  intro settings w d
  rw [compilePacket_b1]
  refine ⟨rfl, ?_⟩
  generalize modeField settings = m, fanField settings = f
  revert m f
  decide

/-- Settles O27: both fields of byte 1 are read above bit 0. -/
theorem powerOffKeepsModeAndFan : Obligations.PowerOffKeepsModeAndFan := by
  intro settings settings' w w' d d' h
  simp only [compilePacket_b1, modeField_ushiftRight, fanField_ushiftRight, h]

end Sys2Proof.Machine
end

section
/-! SUPPORT. The time a train takes, bit cell by bit cell, and the count of a packet's 0 bits (R138). -/

namespace Sys2Proof.Machine

/-- The durations of joined trains add up. -/
@[simp] theorem trainUs_append (t u : PulseTrain) : trainUs (t ++ u) = trainUs t + trainUs u := by
  simp [trainUs]

/-- A bit cell takes 1100 microseconds for a 1 and 1000 more for a 0 (R131). -/
theorem trainUs_bitCell (bit : Bool) : trainUs (bitCell bit) = if bit then 1100 else 2100 := by
  cases bit <;> rfl

/-- Bit cells take 1100 microseconds each, and 1000 more for each 0 among their bits (R131). -/
theorem trainUs_flatMap_bitCell (bit : Nat → Bool) (l : List Nat) :
    trainUs (l.flatMap fun k => bitCell (bit k)) = 1100 * l.length + 1000 * (l.filter fun k => !bit k).length := by
  induction l with
  | nil => rfl
  | cons k l ih =>
    rw [List.flatMap_cons, trainUs_append, trainUs_bitCell, ih]
    cases h : bit k <;> simp [h] <;> omega

/-- The train of a packet word is the lead-in, the cells of bits 0 to 31 of the word, and the trailer (R81, R133). -/
theorem encodeTrain_ofWord_eq_append (w : Word) :
    encodeTrain (Packet.ofWord w) = leadIn ++ (List.range 32).flatMap (fun k => bitCell (w.getLsbD k)) ++ trailer :=
  encodeTrain_ofWord w

/-- The 0 bits of a packet byte are those among its eight bits of the word (R79). -/
theorem filter_not_getLsbD_extractLsb' (w : Word) (start : Nat) :
    ((List.range 8).filter fun j => !(w.extractLsb' start 8).getLsbD j) =
      (List.range 8).filter fun j => !w.getLsbD (start + j) := by
  refine List.filter_congr fun j hj => ?_
  rw [BitVec.getLsbD_extractLsb', decide_eq_true (List.mem_range.1 hj), Bool.true_and]

/-- The 0 bits of the four bytes are the 0 bits of the word (R79, R138). -/
theorem zeroBits_ofWord (w : Word) : zeroBits (Packet.ofWord w) = specZeroBits w := by
  have hrange : List.range 32 = List.range 8 ++ (List.range 8).map (8 + ·) ++ (List.range 8).map (16 + ·) ++
      (List.range 8).map (24 + ·) := rfl
  rw [specZeroBits, hrange]
  simp only [zeroBits, Packet.bytes, Packet.ofWord, List.map_cons, List.map_nil, filter_not_getLsbD_extractLsb',
    List.filter_append, List.filter_map, List.length_append, List.length_map, List.sum_cons, List.sum_nil,
    Function.comp_def, Nat.zero_add, Nat.add_zero, Nat.add_assoc]

/-- The train of a packet word takes 53050 microseconds and 1000 more for each 0 bit (R138). -/
theorem trainUs_encodeTrain_ofWord (w : Word) :
    trainUs (encodeTrain (Packet.ofWord w)) = 53050 + 1000 * specZeroBits w := by
  have hlead : trainUs leadIn = 12900 := rfl
  have htrail : trainUs trailer = 4950 := rfl
  rw [encodeTrain_ofWord_eq_append, trainUs_append, trainUs_append, trainUs_flatMap_bitCell, hlead, htrail,
    List.length_range, specZeroBits]
  omega

/-- A register other than STATUS, PULSE_LEN and PULSE reads as before where SETTINGS, TEMP_C and PACKET are as
before (R56). -/
theorem State.readReg_congr_of_ne_pulse {s t : State} {r : Reg} (hr : r ≠ .status) (hr' : r ≠ .pulseLen)
    (hr'' : ∀ i, r ≠ .pulse i) (hset : t.settings = s.settings) (htmp : t.tempC = s.tempC)
    (hpkt : t.packet = s.packet) : t.readReg r = s.readReg r := by
  cases r with
  | status => contradiction
  | pulseLen => contradiction
  | pulse i => exact absurd rfl (hr'' i)
  | _ => simp only [State.readReg, hset, htmp, hpkt]

end Sys2Proof.Machine
end

section
/-! CERTIFICATES. The statements of 41_encode.md that are left, settled. -/

namespace Sys2Proof.Machine

/-- Settles O31: every packet is the packet of its word. -/
theorem transmissionDuration : Obligations.TransmissionDuration := by
  intro p
  have hduration := trainUs_encodeTrain_ofWord p.toWord
  have hzeros := zeroBits_ofWord p.toWord
  rw [Packet.ofWord_toWord] at hduration hzeros
  exact ⟨hduration, hzeros⟩

/-- Settles O33, by ENCODE's two cases. -/
theorem encodeFrame : Obligations.EncodeFrame := by
  intro s t h
  change execEncode s = _ at h
  obtain ⟨hclear, h'⟩ | ⟨_, h'⟩ := execEncode_cases s <;> rw [h'] at h <;> cases h
  · refine ⟨rfl, rfl, rfl, rfl, rfl, rfl, rfl, fun hw => ?_, fun r hr hr' hr'' => ?_⟩
    · simp [hclear] at hw
    · exact State.readReg_congr_of_ne_pulse hr hr' hr'' rfl rfl rfl
  · refine ⟨rfl, rfl, rfl, rfl, rfl, rfl, rfl, fun _ => rfl, fun r hr hr' hr'' => ?_⟩
    exact State.readReg_congr_of_ne_pulse hr hr' hr'' rfl rfl rfl

end Sys2Proof.Machine
end

section
/-! SUPPORT. How a bit space is classified, at every tolerance and at the default one (R14, R154, R161, R162). -/

namespace Sys2Proof.Machine

/-- No space is nearer to both nominals (R154). -/
theorem NearerShort.not_nearerLong {d : Nat} (h : NearerShort d) : ¬NearerLong d := lt_asymm h

/-- A space reads as a 1 exactly inside a window and nearer to 550 (R154). -/
theorem classify_eq_ok_true_iff (tol : ℚ) (d : Nat) :
    classify tol d = .ok true ↔ (InWindow tol d 550 ∨ InWindow tol d 1550) ∧ NearerShort d := by
  rw [classify_eq_ite]
  split_ifs with h
  · simp only [Except.ok.injEq, decide_eq_true_eq, h.1, true_and]
  · simp only [false_iff]
    exact fun ⟨hw, hs⟩ => h ⟨hw, .inl hs⟩

/-- A space reads as a 0 exactly inside a window and nearer to 1550 (R154). -/
theorem classify_eq_ok_false_iff (tol : ℚ) (d : Nat) :
    classify tol d = .ok false ↔ (InWindow tol d 550 ∨ InWindow tol d 1550) ∧ NearerLong d := by
  rw [classify_eq_ite]
  split_ifs with h
  · obtain ⟨hw, hnear⟩ := h
    simp only [Except.ok.injEq, decide_eq_false_iff_not, hw, true_and]
    exact ⟨hnear.resolve_left, fun hl hs => hs.not_nearerLong hl⟩
  · simp only [false_iff]
    exact fun ⟨hw, hl⟩ => h ⟨hw, .inr hl⟩

/-- A space is ambiguous exactly where it reads as neither bit (R154). -/
theorem classify_eq_ambiguousBit_iff (tol : ℚ) (d : Nat) :
    classify tol d = .error (.err .ambiguousBit) ↔ ¬classify tol d = .ok true ∧ ¬classify tol d = .ok false := by
  rw [classify_eq_ite]
  split_ifs <;> simp

/-- Below 10/31 the short window lies on the short side of 1050 (R162). -/
theorem nearerShort_of_inWindow {tol : ℚ} {d : Nat} (htol : tol < 10 / 31) (h : InWindow tol d 550) :
    NearerShort d := by
  obtain ⟨_, hhigh⟩ := h
  push_cast at hhigh
  have hd : (d : ℚ) < 1050 := by linarith
  exact (nearerShort_iff d).2 (by exact_mod_cast hd)

/-- Below 10/31 the long window lies on the long side of 1050, which is `1550 × 21/31` (R162). -/
theorem nearerLong_of_inWindow {tol : ℚ} {d : Nat} (htol : tol < 10 / 31) (h : InWindow tol d 1550) :
    NearerLong d := by
  obtain ⟨hlow, _⟩ := h
  push_cast at hlow
  have hd : (1050 : ℚ) < d := by linarith
  exact (nearerLong_iff d).2 (by exact_mod_cast hd)

/-- Below 10/31 a space reads as a 1 exactly inside the short window (R162). -/
theorem classify_eq_ok_true_iff_within {tol : ℚ} (htol : tol < 10 / 31) (d : Nat) :
    classify tol d = .ok true ↔ within tol d 550 = true := by
  rw [classify_eq_ok_true_iff, within_iff_inWindow]
  constructor
  · rintro ⟨hshort | hlong, hnear⟩
    · exact hshort
    · exact absurd (nearerLong_of_inWindow htol hlong) hnear.not_nearerLong
  · exact fun h => ⟨.inl h, nearerShort_of_inWindow htol h⟩

/-- Below 10/31 a space reads as a 0 exactly inside the long window (R162). -/
theorem classify_eq_ok_false_iff_within {tol : ℚ} (htol : tol < 10 / 31) (d : Nat) :
    classify tol d = .ok false ↔ within tol d 1550 = true := by
  rw [classify_eq_ok_false_iff, within_iff_inWindow]
  constructor
  · rintro ⟨hshort | hlong, hnear⟩
    · exact absurd hnear (nearerShort_of_inWindow htol hshort).not_nearerLong
    · exact hlong
  · exact fun h => ⟨.inr h, nearerLong_of_inWindow htol h⟩

/-- The space of 1050 is nearer to neither nominal, so it is ambiguous at every tolerance (R162). -/
theorem classify_tie (tol : ℚ) : classify tol 1050 = .error (.err .ambiguousBit) := by
  rw [classify_eq_ite, if_neg]
  rintro ⟨_, hshort | hlong⟩
  · exact absurd ((nearerShort_iff _).1 hshort) (by decide)
  · exact absurd ((nearerLong_iff _).1 hlong) (by decide)

/-- At the default tolerance the window is the one from 3/4 to 5/4 of the nominal (R161). -/
theorem within_quarter_iff (d nom : Nat) :
    within (1 / 4) d nom = true ↔ 3 * nom ≤ 4 * d ∧ 4 * d ≤ 5 * nom := by
  have hlow : (nom : ℚ) * (1 - 1 / 4) ≤ d ↔ (3 * nom : ℚ) ≤ 4 * d := by constructor <;> intro h <;> linarith
  have hhigh : (d : ℚ) ≤ nom * (1 + 1 / 4) ↔ (4 * d : ℚ) ≤ 5 * nom := by constructor <;> intro h <;> linarith
  rw [within_iff_inWindow, InWindow, hlow, hhigh]
  norm_cast

end Sys2Proof.Machine
end

section
/-! SUPPORT. Reading a train and a buffer, and what stops the decoder (R41, R150, R159). -/

namespace Sys2Proof.Machine

/-- The train of a packet, read by index, gives the entries of the layout (R81). -/
theorem trainReader_encodeTrain (p : Packet) {n : Nat} (hn : n < 68) :
    trainReader (encodeTrain p) n = .ok (specEntry p.toWord n) := by
  obtain ⟨htrain, _⟩ := encodedTrainHasTheLayout p
  simp [trainReader, htrain, specTrain, hn]

/-- The decoder takes the train of a packet back to the packet (R160). -/
theorem decodeTrain_encodeTrain {tol : ℚ} (htol : 0 ≤ tol) (p : Packet) :
    decodeTrain tol (encodeTrain p) 68 = .ok p := by
  have hdec := decodeWith_of_specEntry htol fun _ hn => trainReader_encodeTrain p hn
  rwa [Packet.ofWord_toWord] at hdec

/-- The buffer's reader gives exactly the entries that were written (R159). -/
theorem pulseReader_eq_ok_iff {buf : Vector Cell 68} {n : Nat} {e : PulseEntry} :
    pulseReader buf n = .ok e ↔ entryAt buf n = some e := by
  rw [pulseReader_eq_entryAt]
  cases entryAt buf n <;> simp

/-- Where the buffer's reader stops inside the buffer, the cell is unwritten (R41). -/
theorem written_eq_false_of_pulseReader_error {buf : Vector Cell 68} {n : Nat} {x : DecodeStop} (hn : n < 68)
    (h : pulseReader buf n = .error x) : buf[n].written = false := by
  cases hw : buf[n].written with
  | false => rfl
  | true => simp [pulseReader, Vector.getElem?_eq_getElem hn, Cell.read, hw] at h

/-- The check of an entry that fails (R152 to R154, R156). -/
theorem checkPosition_of_not_passes {tol : ℚ} {read : PulseReader} {n : Nat} {e : PulseEntry} (hr : read n = .ok e)
    (hp : ¬PositionPasses tol n e) : checkPosition tol read n = .error (.err (positionError n)) := by
  simp only [checkPosition, hr, if_neg hp]

/-- A check reports an unwritten entry only where the reader does. -/
theorem read_of_checkPosition_uninit {tol : ℚ} {read : PulseReader} {n : Nat}
    (h : checkPosition tol read n = .error .uninit) : read n = .error .uninit := by
  cases hr : read n with
  | error x =>
    rw [checkPosition_of_read_error hr] at h
    rw [Except.error.inj h]
  | ok e =>
    by_cases hp : PositionPasses tol n e
    · simp [checkPosition_of_passes hr hp] at h
    · simp [checkPosition_of_not_passes hr hp] at h

/-- The checks of positions that pass (R150). -/
theorem checkPosition_of_passesBefore {tol : ℚ} {buf : Vector Cell 68} {n : Nat} (h : PassesBefore tol buf n)
    {m : Nat} (hm : m < n) : checkPosition tol (pulseReader buf) m = .ok () := by
  obtain ⟨e, he, hp⟩ := h m hm
  exact checkPosition_of_passes (pulseReader_eq_ok_iff.2 he) hp

/-- A length other than 68 is MALFORMED_LENGTH, whatever the reader answers (R151). -/
theorem decodeWith_of_length_ne {len : Nat} (h : len ≠ 68) (tol : ℚ) (read : PulseReader) :
    decodeWith tol read len = .error (.err .malformedLength) :=
  if_pos h

/-- The code that STATUS gets where the check of position `n` fails (R84). -/
theorem positionError_code (n : Nat) : (positionError n).code = positionCode n := by
  unfold positionError positionCode
  split_ifs <;> rfl

/-- With all 68 entries there, the decoder answers a packet, or what one of the 68 checks answers (R150). -/
theorem decodeWith_ok_or_stop (tol : ℚ) (read : PulseReader) :
    (∃ p, decodeWith tol read 68 = .ok p) ∨
      ∃ n x, n < 68 ∧ checkPosition tol read n = .error x ∧ decodeWith tol read 68 = .error x := by
  classical
  have hok : ∀ m, (¬∃ x, checkPosition tol read m = .error x) → checkPosition tol read m = .ok () := fun m hm => by
    cases hc : checkPosition tol read m with
    | ok _ => rfl
    | error x => exact absurd ⟨x, hc⟩ hm
  by_cases h : ∃ n, n < 68 ∧ ∃ x, checkPosition tol read n = .error x
  · obtain ⟨n, ⟨hn, x, hx⟩, hmin⟩ := Nat.findX h
    have hbefore : ∀ m, m < n → checkPosition tol read m = .ok () := fun m hm =>
      hok m fun hstop => hmin m hm ⟨hm.trans hn, hstop⟩
    exact .inr ⟨n, x, hn, hx, decodeWith_of_first_stop hn hbefore hx⟩
  · have hall : ∀ m, m < 68 → checkPosition tol read m = .ok () := fun m hm => hok m fun hstop => h ⟨m, hm, hstop⟩
    obtain ⟨p, hp⟩ := decodeCells_of_passes (8 * pktLen) 0 Packet.zero le_rfl fun m _ hm =>
      hall m (Nat.lt_of_lt_of_le hm (by decide))
    refine .inl ⟨p, ?_⟩
    rw [decodeWith, if_neg (by decide), checkLeadIn_eq, checkTrailer_eq, hall 0 (by decide), hall 66 (by decide)]
    simp only [Except.bind, hall 1 (by decide), hall 67 (by decide), hp]

/-- The decoder meets an unwritten entry only where the buffer has an unwritten cell (R41, R159). -/
theorem exists_unwritten_of_decodeWith_uninit {tol : ℚ} {buf : Vector Cell 68} {len : Nat}
    (h : decodeWith tol (pulseReader buf) len = .error .uninit) : ∃ i : Fin 68, buf[i].written = false := by
  obtain rfl | hlen := eq_or_ne len 68
  · obtain ⟨p, hp⟩ | ⟨n, x, hn, hx, hstop⟩ := decodeWith_ok_or_stop tol (pulseReader buf)
    · simp [hp] at h
    · obtain rfl : x = .uninit := by simpa [hstop] using h
      exact ⟨⟨n, hn⟩, written_eq_false_of_pulseReader_error hn (read_of_checkPosition_uninit hx)⟩
  · simp [decodeWith_of_length_ne hlen] at h

end Sys2Proof.Machine
end

section
/-! CERTIFICATES. The statements of 42_decode.md, settled. -/

namespace Sys2Proof.Machine

/-- Settles O44: the train of every packet, compiled ones included, decodes to the packet. -/
theorem decodeInvertsEncode : Obligations.DecodeInvertsEncode :=
  fun _ htol _ => ⟨decodeTrain_encodeTrain htol, fun _ _ _ => decodeTrain_encodeTrain htol _⟩

/-- Settles O36: the windows are those from 3/4 to 5/4 of the nominal, and 1/4 is below 10/31. -/
theorem defaultWindows : Obligations.DefaultWindows := by
  intro d
  have hquarter : (1 / 4 : ℚ) < 10 / 31 := by norm_num
  have htrue := classify_eq_ok_true_iff_within hquarter d
  have hfalse := classify_eq_ok_false_iff_within hquarter d
  simp only [classify_eq_ambiguousBit_iff, htrue, hfalse, within_quarter_iff]
  refine ⟨?_, ?_, ?_, ?_, by omega, by omega, by omega, by omega, by omega, by omega, by omega⟩ <;>
    norm_num [InWindow]

/-- Settles O37: the three answers of `classify`, and the spec's two examples in the windows of their tolerances. -/
theorem classificationIsByNearness : Obligations.ClassificationIsByNearness := by
  refine ⟨fun tol d => ⟨classify_eq_ok_true_iff tol d, classify_eq_ok_false_iff tol d, ?_⟩,
    fun tol d _ htol => ⟨classify_eq_ok_true_iff_within htol d, classify_eq_ok_false_iff_within htol d⟩,
    classify_tie, ?_, ?_, ?_, ?_⟩
  · rw [classify_eq_ambiguousBit_iff, classify_eq_ok_true_iff, classify_eq_ok_false_iff, ← not_or, ← and_or_left]
  · rw [within_iff_inWindow]
    norm_num [InWindow]
  · rw [within_iff_inWindow]
    norm_num [InWindow]
  · rw [← Bool.not_eq_true, within_iff_inWindow]
    norm_num [InWindow]
  · rw [classify_eq_ok_true_iff, nearerShort_iff]
    norm_num [InWindow]

/-- Settles O39: the failing entry is the first position that does not pass. -/
theorem decodeReportsTheFirstFailingCheck : Obligations.DecodeReportsTheFirstFailingCheck := by
  intro s n e hlen hn hbefore hentry hfail
  have hstop : decodeWith s.params.tol (pulseReader s.pulse) s.pulseLen.toNat = .error (.err (positionError n)) := by
    rw [hlen]
    exact decodeWith_pulseReader_of_first_stop hn hbefore
      (checkPosition_of_not_passes (pulseReader_eq_ok_iff.2 hentry) hfail)
  change execDecode s = _
  rw [execDecode, hstop, ← positionError_code]
  rfl

/-- Settles O41: all 68 positions pass, and the cells' bits are those of the word. -/
theorem decodeReturnsTheAssembledPacket : Obligations.DecodeReturnsTheAssembledPacket := by
  intro s w hlen hpass hbit
  have hdec : decodeWith s.params.tol (pulseReader s.pulse) s.pulseLen.toNat = .ok (Packet.ofWord w) := by
    rw [hlen]
    exact decodeWith_of_passes (fun _ hn => checkPosition_of_passesBefore hpass hn)
      fun k hk e he => hbit k hk e (pulseReader_eq_ok_iff.1 he)
  refine ⟨?_, fun k hk => by rw [Packet.bytes_getLsbD _ hk, Packet.toWord_ofWord]⟩
  change execDecode s = _
  rw [execDecode, hdec]
  simp only [Packet.toWord_ofWord]
  rfl

/-- Settles O42, by DECODE's three cases. -/
theorem decodeFrame : Obligations.DecodeFrame := by
  intro s t h
  change execDecode s = _ at h
  obtain ⟨_, _, h'⟩ | ⟨_, _, h'⟩ | ⟨hstop, h'⟩ := execDecode_cases s <;> rw [h'] at h <;> cases h
  · exact ⟨rfl, rfl, rfl, rfl, rfl, rfl, rfl, rfl, rfl, fun _ => rfl, fun _ => rfl,
      fun _ hr hr' => State.readReg_congr hr hr' rfl rfl rfl rfl⟩
  · exact ⟨rfl, rfl, rfl, rfl, rfl, rfl, rfl, rfl, rfl, (absurd rfl ·), fun _ => rfl,
      fun _ hr hr' => State.readReg_congr hr hr' rfl rfl rfl rfl⟩
  · refine ⟨rfl, rfl, rfl, rfl, rfl, rfl, rfl, rfl, rfl, (absurd rfl ·), fun hall => ?_,
      fun _ hr hr' => State.readReg_congr hr hr' rfl rfl rfl rfl⟩
    obtain ⟨i, hi⟩ := exists_unwritten_of_decodeWith_uninit hstop
    rw [hall i] at hi
    cases hi

/-- Settles O38: the length is checked before any entry is read. -/
theorem decodeRejectsWrongLength : Obligations.DecodeRejectsWrongLength := by
  intro s hlen
  have hne : s.pulseLen.toNat ≠ 68 := fun h => hlen (BitVec.eq_of_toNat_eq h)
  change execDecode s = _
  rw [execDecode, decodeWith_of_length_ne hne]
  rfl

end Sys2Proof.Machine
end

section
/-! CERTIFICATES. The statement of 60_exceptions.md, settled, with the rule of the idle step. -/

namespace Sys2Proof.Machine

/-- A step with FAULT clear and no access pending is idle (R215). -/
theorem step_of_pending_eq_nil {s : State} (hf : s.fault = none) (hp : s.pending = []) : step s = .next s := by
  simp [step, hf, hp]

/-- Settles O6, by the rule of the idle step. -/
theorem idleBlockHoldsItsRegisters : Obligations.IdleBlockHoldsItsRegisters :=
  fun _ hf hp => step_of_pending_eq_nil hf hp

end Sys2Proof.Machine
end

section
/-! CERTIFICATES. The statement of 70_reset_and_hazards.md, settled, with the rule of the pulse buffer at reset. -/

namespace Sys2Proof.Machine

/-- Reset leaves every entry of the pulse buffer an unwritten cell (R34, R230). -/
theorem State.reset_pulse_getElem (i : Fin 68) : State.reset.pulse[i] = Cell.unwritten :=
  Vector.getElem_replicate i.isLt

/-- Settles O48: the registers by the definition of reset, the buffer entry by entry, and the constant registers as in
every state. -/
theorem resetState : Obligations.ResetState :=
  ⟨rfl, rfl, rfl, rfl, rfl, fun i => congrArg Cell.written (State.reset_pulse_getElem i), rfl, rfl,
    fun c => (constantRegistersAreFixed State.reset c).2.1⟩

end Sys2Proof.Machine
end
